-- ==== Sys2Proof/Word.lean ====
section
/-!
DEFINITION. The word types of the block: the operation word, the key code and the queue slot.
Bit 0 is the least significant bit of every field (00_scope R11).
-/

namespace Sys2Proof

/-- An operation word (30_encoding R80), and the 16-bit POP result word (R88). -/
abbrev Word := BitVec 16

/-- A key code: the 8-bit code of a key's character (30_encoding R83). -/
abbrev KeyCode := BitVec 8

/-- A queue slot, `valid` in bit 9, `kind` in bit 8 and `key` in bits 7:0 (10_state R25, 30_encoding R88). -/
abbrev Slot := BitVec 10

end Sys2Proof
end

