-- ==== Sys2Proof/Config.lean ====
section
/-!
DEFINITION. What is fixed for the block or for a run: the constants and implementation parameters of
00_scope R10, and the free choices of the environment (opaque: no value of them can be proved).
-/

namespace Sys2Proof

namespace Config

/-- P1 NCOLS (00_scope R10). -/
def nCols : Nat := 4
/-- P2 NROWS (00_scope R10). -/
def nRows : Nat := 4
/-- P3 NKEYS = NCOLS × NROWS (00_scope R10). -/
def nKeys : Nat := nCols * nRows
/-- P5 PRESS_PAT (00_scope R10). -/
def pressPat : BitVec 8 := 0x01#8
/-- P6 RELEASE_PAT (00_scope R10). -/
def releasePat : BitVec 8 := 0xFE#8
/-- P21 NFIELDS: voltage, speed, max-speed (00_scope R10). -/
def nFields : Nat := 3
/-- P22 NDIGITS (00_scope R10). -/
def nDigits : Nat := 5
/-- P24 DUTY_FULL: 100.00 % in units of 0.01 % (00_scope R10, R13). -/
def dutyFull : Nat := 10000

end Config

/-- P8 ENQ_FULL_POLICY: what `Enqueue` does with a full queue (00_scope R10, 41_event_queue R134). -/
inductive EnqFullPolicy where
  /-- The event is dropped. -/
  | drop
  /-- The event overwrites the slot at `qin`. -/
  | overwrite
  deriving DecidableEq, Repr

/-- P10 ARROW_MAP: within each pair either assignment; A/B stay vertical, C/D horizontal (30_encoding R85). -/
structure ArrowMap where
  /-- 'A' is up and 'B' down; otherwise 'A' is down and 'B' up. -/
  upIsA : Bool
  /-- 'C' is left and 'D' right; otherwise 'C' is right and 'D' left. -/
  leftIsC : Bool
  deriving DecidableEq, Repr

/-- The default ARROW_MAP (30_encoding R85). -/
def ArrowMap.default : ArrowMap := { upIsA := true, leftIsC := true }

/-- The implementation parameters a model takes as arguments, fixed for a run (00_scope R10, 10_state R45). -/
structure Params where
  /-- P7 QCAP, the queue's capacity. -/
  qcap : Nat
  /-- P8 ENQ_FULL_POLICY. -/
  enqFullPolicy : EnqFullPolicy
  /-- P9 KEYMAP: entry k = 4*c + r is the code of the key at column c, row r (30_encoding R84). -/
  keymap : Vector KeyCode 16
  /-- P10 ARROW_MAP. -/
  arrowMap : ArrowMap
  /-- P13 THRESH_RAW. -/
  threshRaw : Nat
  /-- P14 TPS, ticks per second. -/
  tps : Nat
  /-- P15 STALL_TICKS. -/
  stallTicks : Nat
  /-- P16 BOXCAR_N. -/
  boxcarN : Nat
  /-- P19 BATT_CV, the battery voltage in centivolts. -/
  battCv : Nat
  /-- P20 CEIL_CV, the safety ceiling in centivolts. -/
  ceilCv : Nat
  deriving DecidableEq, Repr

/-- The sixteen characters of the keypad (30_encoding R83): digits, 'A' to 'D', '#' and '*'. -/
def keypadCodes : List KeyCode :=
  [0x30, 0x31, 0x32, 0x33, 0x34, 0x35, 0x36, 0x37, 0x38, 0x39, 0x41, 0x42, 0x43, 0x44, 0x23, 0x2A]

/-- The default KEYMAP, column by column, row 0 first (30_encoding R84). -/
def Params.defaultKeymap : Vector KeyCode 16 :=
  #v[0x31, 0x34, 0x37, 0x2A,
     0x32, 0x35, 0x38, 0x30,
     0x33, 0x36, 0x39, 0x23,
     0x41, 0x42, 0x43, 0x44]

/-- The defaults of 00_scope R10. -/
def Params.default : Params where
  qcap := 2
  enqFullPolicy := .drop
  keymap := Params.defaultKeymap
  arrowMap := ArrowMap.default
  threshRaw := 1229
  tps := 1000
  stallTicks := 1000
  boxcarN := 1
  battCv := 900
  ceilCv := 2400

/-- The constraints a model may assume of any parameter choice (00_scope R10; KEYMAP is onto the sixteen
characters by 30_encoding R84). -/
abbrev Params.Valid (p : Params) : Prop :=
  1 ≤ p.qcap ∧ 1 ≤ p.boxcarN ∧ 1 ≤ p.tps ∧ 6000 * p.tps < 2 ^ 32 ∧
  0 < p.battCv ∧ p.battCv < p.ceilCv ∧ p.ceilCv ≤ 99999 ∧ p.threshRaw ≤ 4095 ∧
  p.keymap.toList.Nodup ∧ ∀ k : Fin 16, p.keymap.get k ∈ keypadCodes

/-- How many boxcar registers exist: none unless BOXCAR_N > 1 (10_state R31). -/
def Params.boxcarSlots (p : Params) : Nat := if 1 < p.boxcarN then p.boxcarN else 0

/-- P11: the polarity of the column or row pins (00_scope R10, 30_encoding R93). -/
inductive Polarity where
  | activeHigh
  | activeLow
  deriving DecidableEq, Repr, Inhabited

/-- What an agent does next (00_scope R7, R9): the agent and the sample it carries. -/
inductive Issue where
  /-- The scan agent samples the four row pins and issues SCAN_TICK (30_encoding R93). -/
  | scan (pins : BitVec 4)
  /-- The speed agent samples the analog channel and issues SPEED_TICK. -/
  | speed (raw : BitVec 12)
  /-- The control agent issues CONTROL_TICK. -/
  | control
  /-- The edge agent issues EDGE. -/
  | edge
  /-- The consumer agent issues the next operation of its loop (00_scope R9). -/
  | consumer
  /-- The environment issues RESET. -/
  | reset
  /-- A word presented outside the agents' own behaviour: any agent may issue any legal word
  (60_exceptions R241), and a word may spell no operation (30_encoding R89). -/
  | port (w : Word)
  deriving DecidableEq, Repr, Inhabited

namespace Config

/-- FREE VALUE (log 2): the n-th choice of the environment: which agent is next, with which sample.
Every interleaving is admitted (00_scope R8) and every sample value (10_state R50). -/
opaque environment : Nat → Issue

/-- OPEN parameter (log 10): COL_POL (00_scope R10 P11). -/
opaque colPol : Polarity

/-- OPEN parameter (log 10): ROW_POL (00_scope R10 P11). -/
opaque rowPol : Polarity

end Config

end Sys2Proof
end

