-- ==== Sys2Proof/Syntax.lean ====
section
/-!
DEFINITION. The operations of the block: one constructor per row of spec/opcode_table.json (30_encoding R87, R86).
-/

namespace Sys2Proof

/-- The operations. A KEY word is decoded into its symbol class (30_encoding R86), as the opcode table has it. -/
inductive Instr where
  /-- SCAN_TICK with the normalized row sample ROWS (R100). -/
  | scanTick (rows : BitVec 4)
  /-- SPEED_TICK with the analog reading RAW (R150). -/
  | speedTick (raw : BitVec 12)
  /-- CONTROL_TICK (R200). -/
  | controlTick
  /-- EDGE (R207). -/
  | edge
  /-- POP (R135). -/
  | pop
  /-- KEY.DIGIT, the table's row of codes 0x30..0x37; the digit is d, 0 to 7 (R171). -/
  | keyDigitLow (d : BitVec 3)
  /-- KEY.DIGIT, the table's row of codes 0x38..0x39; the digit is 8 + d (R171). -/
  | keyDigitHigh (d : BitVec 1)
  /-- KEY.UP (R172). -/
  | keyUp
  /-- KEY.DOWN (R173). -/
  | keyDown
  /-- KEY.LEFT (R174). -/
  | keyLeft
  /-- KEY.RIGHT (R175). -/
  | keyRight
  /-- KEY.COMMIT (R176). -/
  | keyCommit
  /-- KEY.STARTSTOP (R178). -/
  | keyStartstop
  /-- KEY.OTHER: any other code (R179). -/
  | keyOther (code : KeyCode)
  /-- RESET (R260). -/
  | reset
  deriving DecidableEq, Repr

end Sys2Proof
end

