-- ==== Sys2Proof/WellFormed.lean ====
section
/-!
DEFINITION. Which terms of Instr are instructions. Every operand value fits its field by its type; the one check is
that KEY.OTHER is not given the code of one of the sixteen symbols (30_encoding R86: the classes do not overlap).
-/

namespace Sys2Proof

/-- The code belongs to a symbol class other than OTHER: a digit, an arrow, commit or start/stop (30_encoding R86). -/
def isSymbolCode (code : KeyCode) : Bool := code ∈ keypadCodes

/-- The instruction is one the block has (30_encoding R86, R87). -/
def Instr.wellFormed : Instr → Bool
  | .scanTick _ => true
  | .speedTick _ => true
  | .controlTick => true
  | .edge => true
  | .pop => true
  | .keyDigitLow _ => true
  | .keyDigitHigh _ => true
  | .keyUp => true
  | .keyDown => true
  | .keyLeft => true
  | .keyRight => true
  | .keyCommit => true
  | .keyStartstop => true
  | .keyOther code => !isSymbolCode code
  | .reset => true

end Sys2Proof
end

