-- ==== Sys2Proof/Decode.lean ====
section
/-!
DEFINITION. The decoder and the encoder of operation words (30_encoding R80 to R82, R86, R87, R89).
ARROW_MAP is a parameter of both (R85).
-/

namespace Sys2Proof

/-- Why a word spells no operation (30_encoding R89). -/
inductive DecodeReject where
  /-- OPC is 0x0 or 0x8..0xF. -/
  | reservedOpcode
  /-- A must-be-zero bit of the format is 1. -/
  | mbzNonzero
  deriving DecidableEq, Repr

/-- OPC = w[15:12] (30_encoding R80). -/
def opcField (w : Word) : BitVec 4 := w.extractLsb' 12 4

/-- ROWS = w[3:0] (30_encoding R82). -/
def rowsField (w : Word) : BitVec 4 := w.extractLsb' 0 4

/-- RAW = w[11:0] (30_encoding R82). -/
def rawField (w : Word) : BitVec 12 := w.extractLsb' 0 12

/-- CODE = w[7:0] (30_encoding R82). -/
def codeField (w : Word) : KeyCode := w.extractLsb' 0 8

/-- The must-be-zero bits of format R, w[11:4] (30_encoding R81). -/
def mbzR (w : Word) : BitVec 8 := w.extractLsb' 4 8

/-- The must-be-zero bits of format K, w[11:8] (30_encoding R81). -/
def mbzK (w : Word) : BitVec 4 := w.extractLsb' 8 4

/-- The must-be-zero bits of format N, w[11:0] (30_encoding R81). -/
def mbzN (w : Word) : BitVec 12 := w.extractLsb' 0 12

/-- The word is accepted only if its must-be-zero bits are 0 (30_encoding R89). -/
def requireZero {n : Nat} (mbz : BitVec n) (i : Instr) : Except DecodeReject Instr :=
  if mbz = 0 then .ok i else .error .mbzNonzero

/-- KEY sub-decode (30_encoding R86): digit, arrow under ARROW_MAP, commit, start/stop, other. -/
def decodeKey (am : ArrowMap) (code : KeyCode) : Instr :=
  if code.extractLsb' 3 5 = 0b00110#5 then .keyDigitLow (code.extractLsb' 0 3)
  else if code.extractLsb' 1 7 = 0b0011100#7 then .keyDigitHigh (code.extractLsb' 0 1)
  else if code = 0x41#8 then (if am.upIsA then .keyUp else .keyDown)
  else if code = 0x42#8 then (if am.upIsA then .keyDown else .keyUp)
  else if code = 0x43#8 then (if am.leftIsC then .keyLeft else .keyRight)
  else if code = 0x44#8 then (if am.leftIsC then .keyRight else .keyLeft)
  else if code = 0x23#8 then .keyCommit
  else if code = 0x2A#8 then .keyStartstop
  else .keyOther code

/-- The opcode map (30_encoding R87), total on words, rejecting by name (R89). -/
def decode (am : ArrowMap) (w : Word) : Except DecodeReject Instr :=
  if opcField w = 0x1#4 then requireZero (mbzR w) (.scanTick (rowsField w))
  else if opcField w = 0x2#4 then .ok (.speedTick (rawField w))
  else if opcField w = 0x3#4 then requireZero (mbzN w) .controlTick
  else if opcField w = 0x4#4 then requireZero (mbzN w) .edge
  else if opcField w = 0x5#4 then requireZero (mbzN w) .pop
  else if opcField w = 0x6#4 then requireZero (mbzK w) (decodeKey am (codeField w))
  else if opcField w = 0x7#4 then requireZero (mbzN w) .reset
  else .error .reservedOpcode

/-- The KEY word of a code, 0x6000 + CODE (30_encoding R87). -/
def keyWord (code : KeyCode) : Word := 0x60#8 ++ code

/-- The code of 'A' or of 'B' (30_encoding R83, R85). -/
def verticalCode (isA : Bool) : KeyCode := if isA then 0x41#8 else 0x42#8

/-- The code of 'C' or of 'D' (30_encoding R83, R85). -/
def horizontalCode (isC : Bool) : KeyCode := if isC then 0x43#8 else 0x44#8

/-- The operation word of an instruction (30_encoding R81, R87). -/
def encode (am : ArrowMap) : Instr → Word
  | .scanTick rows => 0x100#12 ++ rows
  | .speedTick raw => 0x2#4 ++ raw
  | .controlTick => 0x3000#16
  | .edge => 0x4000#16
  | .pop => 0x5000#16
  | .keyDigitLow d => keyWord (0b00110#5 ++ d)
  | .keyDigitHigh d => keyWord (0b0011100#7 ++ d)
  | .keyUp => keyWord (verticalCode am.upIsA)
  | .keyDown => keyWord (verticalCode (!am.upIsA))
  | .keyLeft => keyWord (horizontalCode am.leftIsC)
  | .keyRight => keyWord (horizontalCode (!am.leftIsC))
  | .keyCommit => keyWord 0x23#8
  | .keyStartstop => keyWord 0x2A#8
  | .keyOther code => keyWord code
  | .reset => 0x7000#16

/-- The instruction the decoder reads from a row's bits, numbered as spec/opcode_table.json numbers them. An
operation word has one length, 16 bits (30_encoding R80), and no byte order (20_memory R61). The table is under the
default ARROW_MAP. -/
def decodeTableWord (nbits w : Nat) : Option Instr :=
  let v := w % 2 ^ nbits
  if v < 2 ^ 16 then (decode ArrowMap.default (BitVec.ofNat 16 v)).toOption else none

/-- A row of the opcode table: the word matches when its bits under the mask are the row's (opcode_table.json). -/
structure OpcodeRow where
  mnemonic : String
  bits : Word
  mask : Word
  deriving DecidableEq, Repr

/-- The word matches the row. -/
def OpcodeRow.matches (row : OpcodeRow) (w : Word) : Bool := w &&& row.mask == row.bits

/-- spec/opcode_table.json, in its order; a later KEY row counts only where no earlier one matches. -/
def opcodeRows : List OpcodeRow :=
  [⟨"SCAN_TICK", 0x1000#16, 0xFFF0#16⟩, ⟨"SPEED_TICK", 0x2000#16, 0xF000#16⟩,
   ⟨"CONTROL_TICK", 0x3000#16, 0xFFFF#16⟩, ⟨"EDGE", 0x4000#16, 0xFFFF#16⟩, ⟨"POP", 0x5000#16, 0xFFFF#16⟩,
   ⟨"KEY.DIGIT", 0x6030#16, 0xFFF8#16⟩, ⟨"KEY.DIGIT", 0x6038#16, 0xFFFE#16⟩,
   ⟨"KEY.UP", 0x6041#16, 0xFFFF#16⟩, ⟨"KEY.DOWN", 0x6042#16, 0xFFFF#16⟩,
   ⟨"KEY.LEFT", 0x6043#16, 0xFFFF#16⟩, ⟨"KEY.RIGHT", 0x6044#16, 0xFFFF#16⟩,
   ⟨"KEY.COMMIT", 0x6023#16, 0xFFFF#16⟩, ⟨"KEY.STARTSTOP", 0x602A#16, 0xFFFF#16⟩,
   ⟨"KEY.OTHER", 0x6000#16, 0xFF00#16⟩, ⟨"RESET", 0x7000#16, 0xFFFF#16⟩]

/-- The mnemonic of an instruction's row in spec/opcode_table.json. -/
def Instr.mnemonic : Instr → String
  | .scanTick _ => "SCAN_TICK"
  | .speedTick _ => "SPEED_TICK"
  | .controlTick => "CONTROL_TICK"
  | .edge => "EDGE"
  | .pop => "POP"
  | .keyDigitLow _ => "KEY.DIGIT"
  | .keyDigitHigh _ => "KEY.DIGIT"
  | .keyUp => "KEY.UP"
  | .keyDown => "KEY.DOWN"
  | .keyLeft => "KEY.LEFT"
  | .keyRight => "KEY.RIGHT"
  | .keyCommit => "KEY.COMMIT"
  | .keyStartstop => "KEY.STARTSTOP"
  | .keyOther _ => "KEY.OTHER"
  | .reset => "RESET"

end Sys2Proof
end

