-- ==== Sys2Proof/Machine/State.lean ====
section
/-!
DEFINITION. The state of the block as plain data: the named registers of 10_state R22 to R43, grouped by the units of
00_scope R2, the model-only counters of R48 and R49, the parameters of a run, and the model's own fields for the
agents. The widths are those of the rules; that values stay in the rules' ranges is 10_state R52 (Safety.lean).
-/

namespace Sys2Proof.Machine

/-- The Debounce Engine and the Keypad Scan Scheduler (10_state R22, R23). -/
structure ScanUnit where
  /-- `hist[k]`, k = 4*c + r: bit 0 the newest observation (R22). -/
  hist : Vector (BitVec 8) 16
  /-- `scanCol`, the driven column (R23). -/
  scanCol : BitVec 2
  deriving DecidableEq, Repr

/-- The Event Queue (10_state R25, R26). -/
structure QueueUnit where
  /-- `qslot[0..QCAP-1]` (R25). -/
  qslot : List Slot
  /-- `qin`, the input index (R26). -/
  qin : Nat
  /-- `qout`, the output index (R26). -/
  qout : Nat
  deriving DecidableEq, Repr

/-- `spState` (10_state R28): 0 = below, 1 = above. -/
inductive SpState where
  | below
  | above
  deriving DecidableEq, Repr

/-- The Speed Estimator (10_state R28 to R31). -/
structure SpeedUnit where
  /-- `spState` (R28). -/
  spState : SpState
  /-- `elapsed`, saturating (R29). -/
  elapsed : BitVec 32
  /-- `rpm`, unit 0.01 RPM (R30). -/
  rpm : BitVec 32
  /-- `rpmHist[0..BOXCAR_N-1]`; no entry unless BOXCAR_N > 1 (R31). -/
  rpmHist : List (BitVec 32)
  /-- `rpmIdx` (R31). -/
  rpmIdx : Nat
  deriving DecidableEq, Repr

/-- The Numeric Entry / Cursor machine (10_state R32 to R35). -/
structure EntryUnit where
  /-- `curRow`, values 0..2 (R32). -/
  curRow : BitVec 2
  /-- `curCol`, values 0..4 (R33). -/
  curCol : BitVec 3
  /-- `digBuf[0..4]`, `digBuf[0]` the most significant digit (R34). -/
  digBuf : Vector (BitVec 4) 5
  /-- `digitEntered` (R35). -/
  digitEntered : Bool
  deriving DecidableEq, Repr

/-- The setpoint register file (10_state R36 to R38). -/
structure Setpoints where
  /-- `spVolt`, unit 0.01 V (R36). -/
  spVolt : BitVec 17
  /-- `spSpeed` (R37). -/
  spSpeed : BitVec 17
  /-- `spMax` (R38). -/
  spMax : BitVec 17
  deriving DecidableEq, Repr

/-- The start/stop latch, MotorLatch (10_state R39 to R41). -/
structure MotorLatch where
  /-- `running` (R39). -/
  running : Bool
  /-- `pwmEnabled` (R40). -/
  pwmEnabled : Bool
  /-- `vth`, voltage too high, as the last CONTROL_TICK left it (R41). -/
  vth : Bool
  deriving DecidableEq, Repr

/-- The duty registers and the output-stage enable (10_state R42, R43). -/
structure OutputStage where
  /-- `dutyHB`, unit 0.01 % (R42). -/
  dutyHB : BitVec 14
  /-- `dutyBoost` (R42). -/
  dutyBoost : BitVec 14
  /-- `dutyBuck` (R42). -/
  dutyBuck : BitVec 14
  /-- `pwmOutEn` (R43). -/
  pwmOutEn : Bool
  deriving DecidableEq, Repr

/-- Where the consumer agent stands in its loop (00_scope R9). -/
inductive Consumer where
  /-- It issues POP next. -/
  | polling
  /-- It has popped a Press of this code and issues KEY of it next. -/
  | dispatching (code : KeyCode)
  deriving DecidableEq, Repr

/-- The state of the block. -/
structure State where
  /-- The parameters of the run; no operation writes them (00_scope R10, 10_state R45; log 1). -/
  cfg : Params
  scan : ScanUnit
  queue : QueueUnit
  speed : SpeedUnit
  entry : EntryUnit
  setpoints : Setpoints
  latch : MotorLatch
  output : OutputStage
  /-- Model-only `lost`: events dropped or overwritten (10_state R48). -/
  lost : Nat
  /-- Model-only `refused`: a word that spells no operation was presented (10_state R49). -/
  refused : Bool
  /-- The result word of the last POP, an output to the consumer (10_state R51, 30_encoding R88; log 3). -/
  popResult : Word
  /-- The consumer agent (00_scope R9; log 3). -/
  consumer : Consumer
  /-- The model's own: issues already scheduled by the environment, the next one first (log 2). -/
  inbox : List Issue
  /-- The model's own: how many free choices of the environment have been taken (log 2). -/
  envTime : Nat
  deriving DecidableEq, Repr

/-- Why a step stops with a fault: never. "No operation of the block traps, faults or stops the block"
(60_exceptions R230), so there is no constructor. -/
inductive Fault where
  deriving DecidableEq, Repr

/-- Why a step has no meaning. A word that spells no operation is NOT one of these: the spec gives it an effect,
the `refused` mark (30_encoding R89). -/
inductive Refusal where
  /-- An operation of Instr without a meaning in this model: raised by no arm of exec. Safe: the model stops. -/
  | notModelled (mnemonic : String)
  deriving DecidableEq, Repr

/-- The outcome of an operation or a step. -/
abbrev StepOutcome := Host.Outcome State Fault Refusal

/-- The state at power-on under the parameters p (70_reset R260, R261), with the run's model-only counters at their
start (R48, R49) and the model's own fields as log 3 says. -/
def State.initial (p : Params) : State where
  cfg := p
  scan := { hist := Vector.replicate 16 0x00#8, scanCol := 0#2 }
  queue := { qslot := List.replicate p.qcap 0#10, qin := 0, qout := 0 }
  speed := { spState := .below, elapsed := 0#32, rpm := 0#32,
             rpmHist := List.replicate p.boxcarSlots 0#32, rpmIdx := 0 }
  entry := { curRow := 0#2, curCol := 0#3, digBuf := Vector.replicate 5 0#4, digitEntered := false }
  setpoints := { spVolt := 0#17, spSpeed := 0#17, spMax := 0#17 }
  latch := { running := false, pwmEnabled := false, vth := false }
  output := { dutyHB := 0#14, dutyBoost := 0#14, dutyBuck := 0#14, pwmOutEn := false }
  lost := 0
  refused := false
  popResult := 0x0000#16
  consumer := .polling
  inbox := []
  envTime := 0

/-- The machine right after power-on, with the default parameters of 00_scope R10 (70_reset R261). -/
def State.reset : State := State.initial Params.default

end Sys2Proof.Machine
end

