-- ==== Sys2Proof/Machine/Operands.lean ====
section
/-!
DEFINITION. The operand forms: the row sample's bits, the key index, the key map, the digit of a KEY.DIGIT, and the
fields of the queue slot and POP result (30_encoding R82 to R88).
-/

namespace Sys2Proof.Machine

/-- The two kinds of KeyEvent (00_scope R15). -/
inductive EventKind where
  | press
  | release
  deriving DecidableEq, Repr

/-- A KeyEvent (00_scope R15): its kind and the key's code. -/
structure KeyEvent where
  kind : EventKind
  key : KeyCode
  deriving DecidableEq, Repr

/-- `ROWS[r]`: the normalized sample of row r, 1 = pressed (30_encoding R82). -/
def rowSample (rows : BitVec 4) (r : Fin 4) : Bool := rows.getLsbD r.val

/-- k = 4*c + r, the history index of the key at column c, row r (10_state R22). -/
def keyIndex (c : BitVec 2) (r : Fin 4) : Fin 16 :=
  ⟨4 * c.toNat + r.val, by have := c.isLt; have := r.isLt; omega⟩

/-- KEYMAP(c, r): the code of the key at column c, row r (30_encoding R84). -/
def keyAt (p : Params) (c : BitVec 2) (r : Fin 4) : KeyCode := p.keymap.get (keyIndex c r)

/-- The digit of a KEY.DIGIT of the row 0x30..0x37: CODE - 0x30 (43_setpoint_entry R171). -/
def lowDigit (d : BitVec 3) : BitVec 4 := BitVec.ofNat 4 d.toNat

/-- The digit of a KEY.DIGIT of the row 0x38..0x39: CODE - 0x30 (43_setpoint_entry R171). -/
def highDigit (d : BitVec 1) : BitVec 4 := BitVec.ofNat 4 (8 + d.toNat)

/-- Bit 8 of a slot: 1 is Press, 0 is Release (10_state R25). -/
def EventKind.bit : EventKind → BitVec 1
  | .press => 1#1
  | .release => 0#1

/-- The slot that holds an unread event: valid = 1, its kind, its key (10_state R25, 41_event_queue R132). -/
def KeyEvent.slot (e : KeyEvent) : Slot := 1#1 ++ e.kind.bit ++ e.key

/-- `valid`, bit 9 of a slot (10_state R25). -/
def slotValid (v : Slot) : Bool := v.getLsbD 9

/-- The POP result word of a slot, `zext_16` (30_encoding R88). -/
def slotResult (v : Slot) : Word := v.setWidth 16

/-- `present`, bit 9 of a POP result (30_encoding R88). -/
def resultPresent (w : Word) : Bool := w.getLsbD 9

/-- `kind`, bit 8 of a POP result: 1 is Press (30_encoding R88). -/
def resultIsPress (w : Word) : Bool := w.getLsbD 8

/-- The key code of a POP result, bits 7:0 (30_encoding R88). -/
def resultKey (w : Word) : KeyCode := w.extractLsb' 0 8

/-- Pin levels and logical values under a polarity, either way: active-low inverts (30_encoding R93). -/
def applyPolarity (p : Polarity) (v : BitVec 4) : BitVec 4 :=
  match p with
  | .activeHigh => v
  | .activeLow => ~~~v

end Sys2Proof.Machine
end

