-- ==== Sys2Proof/Machine/Agents.lean ====
section
/-!
DEFINITION. The agents: which issue comes next, the operation word it presents, and the consumer's loop
(00_scope R7 to R9, 20_memory R67, 70_reset R272).
-/

namespace Sys2Proof.Machine

/-- The next issue: the first scheduled one, or else the environment's free choice (00_scope R8; log 2). -/
def State.nextIssue (s : State) : Issue :=
  match s.inbox with
  | iss :: _ => iss
  | [] => Config.environment s.envTime

/-- The state once its next issue is taken: only the model's own schedule moves. -/
def State.takeIssue (s : State) : State :=
  match s.inbox with
  | _ :: rest => { s with inbox := rest }
  | [] => { s with envTime := s.envTime + 1 }

/-- The word the consumer agent presents: POP while polling, else KEY of the code it popped (00_scope R9). -/
def consumerWord (am : ArrowMap) : Consumer → Word
  | .polling => encode am .pop
  | .dispatching code => keyWord code

/-- The operation word an issue presents to the block (00_scope R7; ROWS after polarity, 30_encoding R93). -/
def issueWord (am : ArrowMap) (c : Consumer) : Issue → Word
  | .scan pins => encode am (.scanTick (applyPolarity Config.rowPol pins))
  | .speed raw => encode am (.speedTick raw)
  | .control => encode am .controlTick
  | .edge => encode am .edge
  | .consumer => consumerWord am c
  | .reset => encode am .reset
  | .port w => w

/-- The operation word presented to the block next. -/
def State.presentedWord (s : State) : Word := issueWord s.cfg.arrowMap s.consumer s.nextIssue

/-- The consumer's move after its operation: a popped Press is dispatched next, a Release is discarded, an empty
result is polled again; after KEY it polls (00_scope R9, 41_event_queue R136). -/
def consumerNext (c : Consumer) (result : Word) : Consumer :=
  match c with
  | .dispatching _ => .polling
  | .polling =>
    if resultPresent result && resultIsPress result then .dispatching (resultKey result) else .polling

/-- What the issuing agent does with the operation's result: only the consumer keeps any. -/
def settleIssue (iss : Issue) (s : State) : State :=
  match iss with
  | .consumer => { s with consumer := consumerNext s.consumer s.popResult }
  | .scan _ => s
  | .speed _ => s
  | .control => s
  | .edge => s
  | .reset => s
  | .port _ => s

end Sys2Proof.Machine
end

