-- ==== Sys2Proof/Machine/Flags.lean ====
section
/-!
DEFINITION. The tests and flag computations of the rules: the debounce patterns, the queue's full and empty tests,
the threshold and stall tests, the voltage flag.
-/

namespace Sys2Proof.Machine

/-- The event a new history value makes: Press at 0x01, Release at 0xFE, none otherwise
(40_debounce_scan R103 to R105). -/
def patternEvent (h : BitVec 8) : Option EventKind :=
  if h = Config.pressPat then some .press
  else if h = Config.releasePat then some .release
  else none

/-- `qslot[j]`; every index a rule computes is in range (20_memory R62). -/
def slotAt (q : QueueUnit) (j : Nat) : Slot := q.qslot.getD j 0#10

/-- `full_at_in`: the slot at `qin` holds an unread event (10_state R27, 41_event_queue R134). -/
def fullAtIn (q : QueueUnit) : Bool := slotValid (slotAt q q.qin)

/-- `empty_at_out`: the slot at `qout` holds none (10_state R27). -/
def emptyAtOut (q : QueueUnit) : Bool := !slotValid (slotAt q q.qout)

/-- `count`: how many slots hold an unread event (10_state R27). -/
def validCount (q : QueueUnit) : Nat := q.qslot.countP slotValid

/-- The sample is above threshold: RAW ≥ THRESH_RAW (42_speed_estimator R153). -/
def aboveThreshold (p : Params) (raw : BitVec 12) : Bool := decide (p.threshRaw ≤ raw.toNat)

/-- The stall test: BelowThreshold and `elapsed` > STALL_TICKS (42_speed_estimator R156). -/
def stalled (p : Params) (u : SpeedUnit) : Bool :=
  decide (u.spState = .below) && decide (p.stallTicks < u.elapsed.toNat)

/-- `vth`: the voltage setpoint is above the ceiling (44_duty_controller R202). -/
def voltageTooHigh (p : Params) (spVolt : BitVec 17) : Bool :=
  if spVolt.toNat ≤ p.battCv then false
  else if spVolt.toNat ≤ p.ceilCv then false
  else true

end Sys2Proof.Machine
end

