-- ==== Sys2Proof/Machine/Ops.lean ====
section
/-!
DEFINITION. The shared operations of the rules, over the unit each one writes. The block has no addressed memory and
takes no exception (20_memory R60, 60_exceptions R230), so there is no memory access and no exception entry here.
-/

namespace Sys2Proof.Machine

/-- `rhu(a, b)`: a/b rounded to the nearest integer, halves up (00_scope R12). -/
def rhu (a b : Nat) : Nat := (2 * a + b) / (2 * b)

/-- `sat_32(v)` in a 32-bit register (00_scope R12). -/
def sat32 (v : Nat) : BitVec 32 := BitVec.ofNat 32 (min v (2 ^ 32 - 1))

/-- One history step: shift left one bit, OR in the sample, modulo 256 (40_debounce_scan R101, R102). -/
def shiftHistory (h : BitVec 8) (b : Bool) : BitVec 8 := BitVec.ofNat 8 ((h.toNat * 2 + b.toNat) % 256)

/-- `QPush(e)`: write the slot at `qin`, advance `qin` (41_event_queue R132). -/
def qPush (p : Params) (e : KeyEvent) (q : QueueUnit) : QueueUnit :=
  { q with qslot := q.qslot.set q.qin e.slot, qin := (q.qin + 1) % p.qcap }

/-- The state `QPop()` leaves: the slot at `qout` cleared and `qout` advanced, or no change when it is empty
(41_event_queue R133). -/
def qPop (p : Params) (q : QueueUnit) : QueueUnit :=
  if emptyAtOut q then q
  else { q with qslot := q.qslot.set q.qout 0#10, qout := (q.qout + 1) % p.qcap }

/-- The word `QPop()` returns: the slot at `qout`, or 0x0000 when it is empty (41_event_queue R133). -/
def qPopResult (q : QueueUnit) : Word :=
  if emptyAtOut q then 0x0000#16 else slotResult (slotAt q q.qout)

/-- `Enqueue(e)`: the debouncer's write, with the full test and ENQ_FULL_POLICY (41_event_queue R134).
DESIGN CHOICE (log 19): every overwrite is the write of R132's and R134's pseudocode, so QCAP overwrites in all bring
`qin` back into line with `qout`, where the prose of 41_event_queue R138 and 70_reset R271 says that only RESET does. -/
def enqueue (e : KeyEvent) (s : State) : State :=
  if fullAtIn s.queue then
    match s.cfg.enqFullPolicy with
    | .drop => { s with lost := s.lost + 1 }
    | .overwrite => { s with lost := s.lost + 1, queue := qPush s.cfg e s.queue }
  else { s with queue := qPush s.cfg e s.queue }

/-- The history of the key at column c, row r takes its row's sample; no other history changes
(40_debounce_scan R101, R102). -/
def shiftKey (rows : BitVec 4) (c : BitVec 2) (u : ScanUnit) (r : Fin 4) : ScanUnit :=
  let h := shiftHistory (u.hist.get (keyIndex c r)) (rowSample rows r)
  { u with hist := u.hist.set (keyIndex c r) h }

/-- The observation of the key at column c, row r: its history shifts, and the NEW value may enqueue an event
(40_debounce_scan R101 to R106). -/
def observeKey (rows : BitVec 4) (c : BitVec 2) (s : State) (r : Fin 4) : State :=
  let scan := shiftKey rows c s.scan r
  match patternEvent (scan.hist.get (keyIndex c r)) with
  | none => { s with scan := scan }
  | some kind => enqueue { kind := kind, key := keyAt s.cfg c r } { s with scan := scan }

/-- `(c + 1) mod 4`, the next column (40_debounce_scan R108). -/
def nextColumn (c : BitVec 2) : BitVec 2 := BitVec.ofNat 2 ((c.toNat + 1) % 4)

/-- The count step of SPEED_TICK: `elapsed` plus one, saturating (42_speed_estimator R152). -/
def countTick (u : SpeedUnit) : SpeedUnit := { u with elapsed := sat32 (u.elapsed.toNat + 1) }

/-- The instantaneous estimate in 0.01 RPM, with the zero guard (42_speed_estimator R154, R158). -/
def instantRpm (p : Params) (elapsed : BitVec 32) : BitVec 32 :=
  if elapsed = 0#32 then 0#32 else BitVec.ofNat 32 (rhu (6000 * p.tps) elapsed.toNat)

/-- `rpm <- Boxcar(inst)`: the moving average over the last BOXCAR_N estimates (42_speed_estimator R157). -/
def storeBoxcar (p : Params) (inst : BitVec 32) (u : SpeedUnit) : SpeedUnit :=
  if p.boxcarN = 1 then { u with rpm := inst }
  else
    let window := u.rpmHist.set u.rpmIdx inst
    { u with
      rpmHist := window
      rpmIdx := (u.rpmIdx + 1) % p.boxcarN
      rpm := BitVec.ofNat 32 (rhu (window.map BitVec.toNat).sum p.boxcarN) }

/-- The transition step of SPEED_TICK: rising and falling crossings (42_speed_estimator R154, R155). -/
def crossThreshold (p : Params) (raw : BitVec 12) (u : SpeedUnit) : SpeedUnit :=
  match u.spState, aboveThreshold p raw with
  | .below, true =>
    { storeBoxcar p (instantRpm p u.elapsed) u with elapsed := 0#32, spState := .above }
  | .above, false => { u with spState := .below }
  | .below, false => u
  | .above, true => u

/-- The stall step of SPEED_TICK: `rpm` to 0, and the boxcar window cleared (42_speed_estimator R151, R156). -/
def stallTest (p : Params) (u : SpeedUnit) : SpeedUnit :=
  if stalled p u then
    if 1 < p.boxcarN then
      { u with rpm := 0#32, rpmHist := List.replicate p.boxcarN 0#32, rpmIdx := 0 }
    else { u with rpm := 0#32 }
  else u

/-- A digit into the slot at `curCol`, and the digit flag (43_setpoint_entry R171). `curCol` ≤ 4 in every reachable
state (10_state R52); above it there is no slot to write (log 7). -/
def writeDigit (d : BitVec 4) (u : EntryUnit) : EntryUnit :=
  { u with digBuf := u.digBuf.setIfInBounds u.curCol.toNat d, digitEntered := true }

/-- The cursor one row up, clamped (43_setpoint_entry R172). -/
def rowUp (u : EntryUnit) : EntryUnit := { u with curRow := BitVec.ofNat 2 (u.curRow.toNat - 1) }

/-- The cursor one row down, clamped (43_setpoint_entry R173). -/
def rowDown (u : EntryUnit) : EntryUnit :=
  { u with curRow := BitVec.ofNat 2 (min (u.curRow.toNat + 1) (Config.nFields - 1)) }

/-- The cursor one digit slot left, clamped (43_setpoint_entry R174). -/
def columnLeft (u : EntryUnit) : EntryUnit := { u with curCol := BitVec.ofNat 3 (u.curCol.toNat - 1) }

/-- The cursor one digit slot right, clamped (43_setpoint_entry R175). -/
def columnRight (u : EntryUnit) : EntryUnit :=
  { u with curCol := BitVec.ofNat 3 (min (u.curCol.toNat + 1) (Config.nDigits - 1)) }

/-- The value of the digit buffer, `digBuf[0]` the most significant digit (43_setpoint_entry R176). -/
def bufferValue (b : Vector (BitVec 4) 5) : Nat :=
  10000 * b[0].toNat + 1000 * b[1].toNat + 100 * b[2].toNat + 10 * b[3].toNat + b[4].toNat

/-- The setpoint register of the cursor's row takes the value (43_setpoint_entry R176, R177). -/
def storeSetpoint (curRow : BitVec 2) (n : Nat) (u : Setpoints) : Setpoints :=
  if curRow = 0#2 then { u with spVolt := BitVec.ofNat 17 n }
  else if curRow = 1#2 then { u with spSpeed := BitVec.ofNat 17 n }
  else if curRow = 2#2 then { u with spMax := BitVec.ofNat 17 n }
  else u

/-- The entry state after a commit: buffer cleared, next row with wrap, column 0, flag clear
(43_setpoint_entry R176). -/
def entryAfterCommit (u : EntryUnit) : EntryUnit where
  curRow := BitVec.ofNat 2 ((u.curRow.toNat + 1) % Config.nFields)
  curCol := 0#3
  digBuf := Vector.replicate 5 0#4
  digitEntered := false

/-- The deferred cursor advance of CONTROL_TICK (44_duty_controller R201). -/
def advanceCursor (u : EntryUnit) : EntryUnit :=
  if u.digitEntered then { columnRight u with digitEntered := false } else u

/-- The buck duty of the voltage mapping, in 0.01 % (44_duty_controller R202). -/
def buckDuty (p : Params) (v : Nat) : Nat :=
  if v ≤ p.battCv then rhu (Config.dutyFull * v) p.battCv
  else if v ≤ p.ceilCv then Config.dutyFull
  else 0

/-- The boost duty of the voltage mapping, in 0.01 % (44_duty_controller R202). -/
def boostDuty (p : Params) (v : Nat) : Nat :=
  if v ≤ p.battCv then 0
  else if v ≤ p.ceilCv then rhu (Config.dutyFull * (v - p.battCv)) v
  else 0

/-- The H-bridge duty, with the too-high case, the zero guard and the clamp (44_duty_controller R203). -/
def hBridgeDuty (vth : Bool) (speed max : Nat) : Nat :=
  if vth = true ∨ max = 0 then 0 else min Config.dutyFull (rhu (Config.dutyFull * speed) max)

/-- Output gating: the duties are applied and the stage enabled only when `pwmEnabled` (44_duty_controller R204). -/
def gateOutputs (pwmEnabled : Bool) (hb boost buck : Nat) : OutputStage :=
  if pwmEnabled then
    { dutyHB := BitVec.ofNat 14 hb, dutyBoost := BitVec.ofNat 14 boost, dutyBuck := BitVec.ofNat 14 buck,
      pwmOutEn := true }
  else { dutyHB := 0#14, dutyBoost := 0#14, dutyBuck := 0#14, pwmOutEn := false }

/-- `Toggle()` (44_duty_controller R206). -/
def toggle (u : MotorLatch) : MotorLatch :=
  if u.running = true ∨ u.pwmEnabled = true then { u with running := false, pwmEnabled := false }
  else if u.vth = false then { u with running := true, pwmEnabled := true }
  else u

/-- The writes of RESET (70_reset R260): every register; the parameters, `lost`, `refused` and the model's own fields
of the agents stay. -/
def resetRegisters (s : State) : State :=
  { s with
    scan := { hist := Vector.replicate 16 0x00#8, scanCol := 0#2 }
    queue := { qslot := List.replicate s.cfg.qcap 0#10, qin := 0, qout := 0 }
    speed := { spState := .below, elapsed := 0#32, rpm := 0#32,
               rpmHist := List.replicate s.cfg.boxcarSlots 0#32, rpmIdx := 0 }
    entry := { curRow := 0#2, curCol := 0#3, digBuf := Vector.replicate 5 0#4, digitEntered := false }
    setpoints := { spVolt := 0#17, spSpeed := 0#17, spMax := 0#17 }
    latch := { running := false, pwmEnabled := false, vth := false }
    output := { dutyHB := 0#14, dutyBoost := 0#14, dutyBuck := 0#14, pwmOutEn := false } }

/-- The effect of a word that spells no operation: the `refused` mark and nothing else (30_encoding R89). -/
def markRefused (s : State) : State := { s with refused := true }

end Sys2Proof.Machine
end

