-- ==== Sys2Proof/Machine/Debounce.lean ====
section
/-!
DEFINITION. The Debounce Engine and the Keypad Scan Scheduler: SCAN_TICK (40_debounce_scan R100 to R111).
-/

namespace Sys2Proof.Machine

/-- The four observations of one SCAN_TICK, in ascending row order (40_debounce_scan R101, R107). -/
def observeColumn (rows : BitVec 4) (c : BitVec 2) (s : State) : State :=
  [(0 : Fin 4), 1, 2, 3].foldl (observeKey rows c) s

/-- SCAN_TICK (40_debounce_scan R101): observe the column `scanCol`, then advance it. -/
def execScanTick (rows : BitVec 4) (s : State) : StepOutcome :=
  let s' := observeColumn rows s.scan.scanCol s
  .next { s' with scan := { s'.scan with scanCol := nextColumn s.scan.scanCol } }

end Sys2Proof.Machine
end

