-- ==== Sys2Proof/Machine/Duty.lean ====
section
/-!
DEFINITION. The Duty-Cycle Controller and the start/stop latch: CONTROL_TICK and EDGE (44_duty_controller R200 to R209).
-/

namespace Sys2Proof.Machine

/-- CONTROL_TICK (44_duty_controller R200): voltage mapping and `vth`, H-bridge, gating, cursor advance. -/
def execControlTick (s : State) : StepOutcome :=
  let v := s.setpoints.spVolt
  let vth := voltageTooHigh s.cfg v
  let hb := hBridgeDuty vth s.setpoints.spSpeed.toNat s.setpoints.spMax.toNat
  .next { s with
    latch := { s.latch with vth := vth }
    output := gateOutputs s.latch.pwmEnabled hb (boostDuty s.cfg v.toNat) (buckDuty s.cfg v.toNat)
    entry := advanceCursor s.entry }

/-- EDGE (44_duty_controller R207): one `Toggle()` per delivered edge. -/
def execEdge (s : State) : StepOutcome := .next { s with latch := toggle s.latch }

end Sys2Proof.Machine
end

