-- ==== Sys2Proof/Machine/Entry.lean ====
section
/-!
DEFINITION. The Numeric Entry machine: the symbol classes of KEY (43_setpoint_entry R170 to R181).
-/

namespace Sys2Proof.Machine

/-- KEY.DIGIT, digits 0 to 7 (43_setpoint_entry R171). -/
def execKeyDigitLow (d : BitVec 3) (s : State) : StepOutcome :=
  .next { s with entry := writeDigit (lowDigit d) s.entry }

/-- KEY.DIGIT, digits 8 and 9 (43_setpoint_entry R171). -/
def execKeyDigitHigh (d : BitVec 1) (s : State) : StepOutcome :=
  .next { s with entry := writeDigit (highDigit d) s.entry }

/-- KEY.UP (43_setpoint_entry R172). -/
def execKeyUp (s : State) : StepOutcome := .next { s with entry := rowUp s.entry }

/-- KEY.DOWN (43_setpoint_entry R173). -/
def execKeyDown (s : State) : StepOutcome := .next { s with entry := rowDown s.entry }

/-- KEY.LEFT (43_setpoint_entry R174). -/
def execKeyLeft (s : State) : StepOutcome := .next { s with entry := columnLeft s.entry }

/-- KEY.RIGHT (43_setpoint_entry R175). -/
def execKeyRight (s : State) : StepOutcome := .next { s with entry := columnRight s.entry }

/-- KEY.COMMIT (43_setpoint_entry R176, R177): the only writer of the setpoints; `vth` is not written. -/
def execKeyCommit (s : State) : StepOutcome :=
  .next { s with
    setpoints := storeSetpoint s.entry.curRow (bufferValue s.entry.digBuf) s.setpoints
    entry := entryAfterCommit s.entry }

/-- KEY.STARTSTOP (43_setpoint_entry R178): `Toggle()` and nothing else. -/
def execKeyStartstop (s : State) : StepOutcome := .next { s with latch := toggle s.latch }

/-- KEY.OTHER (43_setpoint_entry R179): "no effect (explicitly ignored, not an error)", whatever the code. -/
def execKeyOther (_code : KeyCode) (s : State) : StepOutcome := .next s

end Sys2Proof.Machine
end

