-- ==== Sys2Proof/Machine/Queue.lean ====
section
/-!
DEFINITION. The Event Queue's own operation: POP (41_event_queue R135).
-/

namespace Sys2Proof.Machine

/-- POP (41_event_queue R135): `result <- QPop()`. An empty queue is a result, 0x0000, not an error. -/
def execPop (s : State) : StepOutcome :=
  .next { s with queue := qPop s.cfg s.queue, popResult := qPopResult s.queue }

end Sys2Proof.Machine
end

