-- ==== Sys2Proof/Machine/Reset.lean ====
section
/-!
DEFINITION. RESET (70_reset R260).
-/

namespace Sys2Proof.Machine

/-- RESET (70_reset R260): every register to its reset value; `lost` and `refused` are not changed. -/
def execReset (s : State) : StepOutcome := .next (resetRegisters s)

end Sys2Proof.Machine
end

