-- ==== Sys2Proof/Machine/Speed.lean ====
section
/-!
DEFINITION. The Speed Estimator: SPEED_TICK (42_speed_estimator R150 to R160).
-/

namespace Sys2Proof.Machine

/-- SPEED_TICK (42_speed_estimator R151): count, then the crossing, then the stall test. -/
def execSpeedTick (raw : BitVec 12) (s : State) : StepOutcome :=
  .next { s with speed := stallTest s.cfg (crossThreshold s.cfg raw (countTick s.speed)) }

end Sys2Proof.Machine
end

