-- ==== Sys2Proof/Machine/Dispatch.lean ====
section
/-! DEFINITION. The dispatch of an operation to its meaning, one arm per constructor. -/

namespace Sys2Proof.Machine

def exec (i : Instr) (s : State) : Host.Outcome State Fault Refusal :=
  match i with
  | .scanTick rows => Sys2Proof.Machine.execScanTick rows s
  | .speedTick raw => Sys2Proof.Machine.execSpeedTick raw s
  | .controlTick => Sys2Proof.Machine.execControlTick s
  | .edge => Sys2Proof.Machine.execEdge s
  | .pop => Sys2Proof.Machine.execPop s
  | .keyDigitLow d => Sys2Proof.Machine.execKeyDigitLow d s
  | .keyDigitHigh d => Sys2Proof.Machine.execKeyDigitHigh d s
  | .keyUp => Sys2Proof.Machine.execKeyUp s
  | .keyDown => Sys2Proof.Machine.execKeyDown s
  | .keyLeft => Sys2Proof.Machine.execKeyLeft s
  | .keyRight => Sys2Proof.Machine.execKeyRight s
  | .keyCommit => Sys2Proof.Machine.execKeyCommit s
  | .keyStartstop => Sys2Proof.Machine.execKeyStartstop s
  | .keyOther code => Sys2Proof.Machine.execKeyOther code s
  | .reset => Sys2Proof.Machine.execReset s

end Sys2Proof.Machine
end

