-- ==== Sys2Proof/Machine/Step.lean ====
section
/-!
DEFINITION. One step: the next issue is taken, the word it presents is decoded and performed as one atomic operation
(00_scope R6, 20_memory R67), and the issuing agent keeps its result.
-/

namespace Sys2Proof.Machine

/-- One step of the block with its agents. A word that spells no operation sets `refused` (30_encoding R89). -/
def step (s : State) : Host.Outcome State Fault Refusal :=
  match decode s.cfg.arrowMap s.presentedWord with
  | .error _ => .next (settleIssue s.nextIssue (markRefused s.takeIssue))
  | .ok i =>
    match exec i s.takeIssue with
    | .next t => .next (settleIssue s.nextIssue t)
    | .fault f => .fault f
    | .refused r => .refused r

/-- The state with one operation word scheduled as the very next issue (log 14). -/
def State.withFetchWord (s : State) (nbits w : Nat) : State :=
  { s with inbox := .port (BitVec.ofNat 16 (w % 2 ^ nbits)) :: s.inbox }

end Sys2Proof.Machine
end

