-- ==== Sys2Proof/Machine/Assembler.lean ====
section
/-!
DEFINITION. The textual form of operations and programs (30_encoding R91, R92): lines of text to operation words.
A line is `[agent] syntax ; comment`. Text is a list of characters. Where R91 and R92 do not say how a text is read, log 18
(DESIGN CHOICE) says what is read here.
-/

namespace Sys2Proof.Machine

/-- The agent a line is tagged with (30_encoding R91). -/
inductive AgentTag where
  | scan
  | speed
  | ctrl
  | edge
  | fg
  | env
  deriving DecidableEq, Repr

/-- One operation as written, its operand still a number of any size (30_encoding R91). -/
inductive AsmOp where
  | scan (rows : Nat)
  | speed (raw : Nat)
  | ctrl
  | edge
  | pop
  | key (code : Nat)
  | reset
  deriving DecidableEq, Repr

/-- The word of an operation; "an operand out of its range is an assembly error, not a word" (30_encoding R91). -/
def AsmOp.word : AsmOp → Option Word
  | .scan rows => if rows ≤ 15 then some (BitVec.ofNat 16 (0x1000 + rows)) else none
  | .speed raw => if raw ≤ 4095 then some (BitVec.ofNat 16 (0x2000 + raw)) else none
  | .ctrl => some 0x3000#16
  | .edge => some 0x4000#16
  | .pop => some 0x5000#16
  | .key code => if code ≤ 255 then some (BitVec.ofNat 16 (0x6000 + code)) else none
  | .reset => some 0x7000#16

/-- What a line stands for: words in order, or one of the two pseudo-operations whose length the run decides
(30_encoding R92). -/
inductive AsmItem where
  | words (ws : List Word)
  | waitpop
  | dispatch
  deriving DecidableEq, Repr

/-- An assembled line: the agent tag, where there is one, and the item; `none` for a line with no item. -/
structure AsmLine where
  tag : Option AgentTag
  item : Option AsmItem
  deriving DecidableEq, Repr

/-- The text before a comment, which `;` starts (30_encoding R91); a `;` in apostrophes starts one too
(DESIGN CHOICE, log 18). -/
def stripComment (cs : List Char) : List Char := cs.takeWhile (fun c => c ≠ ';')

/-- Spaces, tabs, carriage returns and the commas of `frame` separate words, in apostrophes too
(DESIGN CHOICE, log 18). -/
def isSeparator (c : Char) : Bool := c = ' ' || c = ',' || c.toNat = 9 || c.toNat = 13

/-- The words of a text; `acc` holds the word being read, reversed. -/
def splitWords (acc : List Char) : List Char → List (List Char)
  | [] => if acc.isEmpty then [] else [acc.reverse]
  | c :: cs =>
    if isSeparator c then
      if acc.isEmpty then splitWords [] cs else acc.reverse :: splitWords [] cs
    else splitWords (c :: acc) cs

/-- The value of a digit character in a base up to 16; capital hexadecimal digits are read (DESIGN CHOICE, log 18). -/
def digitValue (base : Nat) (c : Char) : Option Nat :=
  let n := c.toNat
  let v := if 48 ≤ n ∧ n ≤ 57 then n - 48
    else if 97 ≤ n ∧ n ≤ 102 then n - 87
    else if 65 ≤ n ∧ n ≤ 70 then n - 55
    else 16
  if v < base then some v else none

/-- The value of a run of digits, the most significant first. -/
def digitsValue (base : Nat) (acc : Nat) : List Char → Option Nat
  | [] => some acc
  | c :: cs =>
    match digitValue base c with
    | some v => digitsValue base (base * acc + v) cs
    | none => none

/-- A number: decimal, `0x` hexadecimal, `0b` binary, or the code of a character in apostrophes (30_encoding R91).
DESIGN CHOICE (log 18) where the character is none of 30_encoding R83's sixteen: a character is read as its Unicode code,
which is its ASCII code where it has one, and a space, tab, carriage return, comma or `;` never comes here, because it
has already ended the word or the text. -/
def parseNumber : List Char → Option Nat
  | [] => none
  | '0' :: 'x' :: c :: cs => digitsValue 16 0 (c :: cs)
  | '0' :: 'b' :: c :: cs => digitsValue 2 0 (c :: cs)
  | c :: cs =>
    if c.toNat = 39 then
      match cs with
      | [x, q] => if q.toNat = 39 then some x.toNat else none
      | _ => none
    else digitsValue 10 0 (c :: cs)

/-- An agent tag (30_encoding R91). -/
def parseTag : List Char → Option AgentTag
  | ['[', 's', 'c', 'a', 'n', ']'] => some .scan
  | ['[', 's', 'p', 'e', 'e', 'd', ']'] => some .speed
  | ['[', 'c', 't', 'r', 'l', ']'] => some .ctrl
  | ['[', 'e', 'd', 'g', 'e', ']'] => some .edge
  | ['[', 'f', 'g', ']'] => some .fg
  | ['[', 'e', 'n', 'v', ']'] => some .env
  | _ => none

/-- One operation from its words (30_encoding R91). -/
def parseOp : List (List Char) → Option AsmOp
  | [['s', 'c', 'a', 'n'], n] => (parseNumber n).map .scan
  | [['s', 'p', 'e', 'e', 'd'], n] => (parseNumber n).map .speed
  | [['c', 't', 'r', 'l']] => some .ctrl
  | [['e', 'd', 'g', 'e']] => some .edge
  | [['p', 'o', 'p']] => some .pop
  | [['k', 'e', 'y'], n] => (parseNumber n).map .key
  | [['r', 'e', 's', 'e', 't']] => some .reset
  | _ => none

/-- The word of an operation written as words; none is an assembly error. -/
def opWord (ws : List (List Char)) : Option Word := (parseOp ws).bind AsmOp.word

/-- The word of a `scan` whose operand is written as text, for `frame` (30_encoding R92). -/
def scanWord (n : List Char) : Option Word := (parseNumber n).bind (fun m => (AsmOp.scan m).word)

/-- An item from its words: `rep`, `frame`, `waitpop`, `dispatch` (30_encoding R92) or one operation (R91). -/
def parseItem (ws : List (List Char)) : Option AsmItem :=
  match ws with
  | ['r', 'e', 'p'] :: n :: op =>
    match parseNumber n, opWord op with
    | some k, some w => some (.words (List.replicate k w))
    | _, _ => none
  | [['f', 'r', 'a', 'm', 'e'], m0, m1, m2, m3] =>
    match scanWord m0, scanWord m1, scanWord m2, scanWord m3 with
    | some w0, some w1, some w2, some w3 => some (.words [w0, w1, w2, w3])
    | _, _, _, _ => none
  | [['w', 'a', 'i', 't', 'p', 'o', 'p']] => some .waitpop
  | [['d', 'i', 's', 'p', 'a', 't', 'c', 'h']] => some .dispatch
  | _ => (opWord ws).map (fun w => .words [w])

/-- A line of text (30_encoding R91); none is an assembly error. DESIGN CHOICE (log 18): a blank line, and a line that
holds an agent tag and no operation, are lines with no item and no errors. -/
def assembleLine (cs : List Char) : Option AsmLine :=
  match splitWords [] (stripComment cs) with
  | [] => some { tag := none, item := none }
  | w :: ws =>
    match parseTag w with
    | some tag =>
      match ws with
      | [] => some { tag := some tag, item := none }
      | _ => (parseItem ws).map (fun item => { tag := some tag, item := some item })
    | none => (parseItem (w :: ws)).map (fun item => { tag := none, item := some item })

end Sys2Proof.Machine
end

