-- ==== Sys2Proof/Machine/Outputs.lean ====
section
/-!
DEFINITION. The outputs of the block, read with no effect on state (10_state R24, R51; 60_exceptions R243).
-/

namespace Sys2Proof.Machine

/-- `colDrive`: bit c is 1 exactly when c = scanCol (10_state R24). -/
def State.colDrive (s : State) : BitVec 4 := 1#4 <<< s.scan.scanCol.toNat

/-- The electrical level of the four column lines, under COL_POL (10_state R24, 30_encoding R93). -/
def State.columnLines (s : State) : BitVec 4 := applyPolarity Config.colPol s.colDrive

/-- The outputs of 10_state R51. -/
structure Outputs where
  colDrive : BitVec 4
  stage : OutputStage
  popResult : Word
  rpm : BitVec 32
  running : Bool
  vth : Bool
  setpoints : Setpoints
  entry : EntryUnit
  deriving DecidableEq, Repr

/-- Reading the outputs (10_state R51): to the digital I/O, the PWM hardware, the consumer and the display. -/
def State.outputs (s : State) : Outputs where
  colDrive := s.colDrive
  stage := s.output
  popResult := s.popResult
  rpm := s.speed.rpm
  running := s.latch.running
  vth := s.latch.vth
  setpoints := s.setpoints
  entry := s.entry

end Sys2Proof.Machine
end

