-- ==== Sys2Proof/Machine/Run.lean ====
section
/-!
DEFINITION. Sequences of operations (20_memory R67) and the pseudo-operations of 30_encoding R92 over them.
-/

namespace Sys2Proof.Machine

/-- Operations performed one after another, each seeing the state the one before it left (20_memory R67). -/
def execAll : List Instr → State → StepOutcome
  | [], s => .next s
  | i :: rest, s =>
    match exec i s with
    | .next t => execAll rest t
    | .fault f => .fault f
    | .refused r => .refused r

/-- `rep <n> <op>` (30_encoding R92). -/
def repeatOp (n : Nat) (i : Instr) : List Instr := List.replicate n i

/-- `frame <m0>, <m1>, <m2>, <m3>`: one SCAN_TICK per column (30_encoding R92). -/
def frameOps (m0 m1 m2 m3 : BitVec 4) : List Instr :=
  [.scanTick m0, .scanTick m1, .scanTick m2, .scanTick m3]

/-- `waitpop` cut off after n POPs: POP until a result is present; none when every one of the n was empty. It has no
timeout of its own and never ends if no event arrives (30_encoding R92, 41_event_queue R136). -/
def waitPop : Nat → State → Option State
  | 0, _ => none
  | n + 1, s =>
    match exec .pop s with
    | .next t => if resultPresent t.popResult then some t else waitPop n t
    | .fault _ => none
    | .refused _ => none

/-- `dispatch`, its `waitpop` cut off after n POPs: then KEY of the key code for a Press, nothing for a Release
(30_encoding R92, 00_scope R9). Performed by one agent with no other between (70_reset R272 says others may be). -/
def dispatchNext (n : Nat) (s : State) : Option State :=
  match waitPop n s with
  | none => none
  | some t =>
    if resultIsPress t.popResult then
      match exec (decodeKey t.cfg.arrowMap (resultKey t.popResult)) t with
      | .next u => some u
      | .fault _ => none
      | .refused _ => none
    else some t

end Sys2Proof.Machine
end

