-- ==== Sys2Proof/Safety.lean ====
section
/-!
DEFINITION. What claims speak of: the shape of a state under its parameters, the invariants of 10_state R52 and
41_event_queue R137, the queue's contents, and what a SCAN_TICK does in the words of 40_debounce_scan R102 to R108.
-/

namespace Sys2Proof.Machine

/-- The arrays have the lengths and the indices the ranges of 10_state R25, R26 and R31. -/
abbrev State.Shaped (s : State) : Prop :=
  s.queue.qslot.length = s.cfg.qcap ∧ s.queue.qin < s.cfg.qcap ∧ s.queue.qout < s.cfg.qcap ∧
  s.speed.rpmHist.length = s.cfg.boxcarSlots ∧ (s.speed.rpmIdx < s.cfg.boxcarSlots ∨ s.speed.rpmIdx = 0)

/-- 10_state R52: what every operation keeps true from any reset state. -/
abbrev State.InRange (s : State) : Prop :=
  s.latch.running = s.latch.pwmEnabled ∧
  s.entry.curRow.toNat ≤ 2 ∧ s.entry.curCol.toNat ≤ 4 ∧
  (∀ i : Fin 5, (s.entry.digBuf.get i).toNat ≤ 9) ∧
  s.setpoints.spVolt.toNat ≤ 99999 ∧ s.setpoints.spSpeed.toNat ≤ 99999 ∧ s.setpoints.spMax.toNat ≤ 99999 ∧
  s.output.dutyHB.toNat ≤ 10000 ∧ s.output.dutyBoost.toNat ≤ 10000 ∧ s.output.dutyBuck.toNat ≤ 10000 ∧
  (s.output.pwmOutEn = false →
    s.output.dutyHB = 0#14 ∧ s.output.dutyBoost = 0#14 ∧ s.output.dutyBuck = 0#14) ∧
  ∀ j < s.queue.qslot.length, slotValid (slotAt s.queue j) = false → slotAt s.queue j = 0#10

/-- INV_Q (41_event_queue R137): the valid slots are the `count` ones from `qout` on, and `qin` is behind them. -/
abbrev State.QueueAligned (s : State) : Prop :=
  s.queue.qin = (s.queue.qout + validCount s.queue) % s.cfg.qcap ∧
  ∀ j < s.cfg.qcap,
    slotValid (slotAt s.queue ((s.queue.qout + j) % s.cfg.qcap)) = decide (j < validCount s.queue)

/-- The unread events of an aligned queue, the oldest first (41_event_queue R137). -/
def queueContents (p : Params) (q : QueueUnit) : List Slot :=
  (List.range (validCount q)).map (fun j => slotAt q ((q.qout + j) % p.qcap))

/-- The event of the key at the driven column, row r, from the row sample and the OLD history: a Press when the sample
is 1 and bits 6..0 are 0 (40_debounce_scan R103), a Release when it is 0 and they are all 1 (R104), else none (R105). -/
def keyEvent (p : Params) (rows : BitVec 4) (u : ScanUnit) (r : Fin 4) : Option KeyEvent :=
  let h := u.hist.get (keyIndex u.scanCol r)
  if rows.getLsbD r.val then
    if h.extractLsb' 0 7 = 0x00#7 then some { kind := .press, key := keyAt p u.scanCol r } else none
  else
    if h.extractLsb' 0 7 = 0x7F#7 then some { kind := .release, key := keyAt p u.scanCol r } else none

/-- The events of one SCAN_TICK, in ascending row order (40_debounce_scan R107). -/
def scanEvents (p : Params) (rows : BitVec 4) (u : ScanUnit) : List KeyEvent :=
  [(0 : Fin 4), 1, 2, 3].filterMap (keyEvent p rows u)

/-- The scan unit after one SCAN_TICK: the four histories of the driven column are shifted left with the sample ORed
in, the other twelve kept (40_debounce_scan R102), and the column is the next one (R108). -/
def scanUnitAfter (rows : BitVec 4) (u : ScanUnit) : ScanUnit where
  hist := Vector.ofFn fun k =>
    if k.val / 4 = u.scanCol.toNat then
      (u.hist.get k <<< 1) ||| (BitVec.ofBool (rows.getLsbD (k.val % 4))).setWidth 8
    else u.hist.get k
  scanCol := u.scanCol + 1#2

/-- The history of one key after a run of its observations (40_debounce_scan R109). -/
def historyAfter (h : BitVec 8) (samples : List Bool) : BitVec 8 := samples.foldl shiftHistory h

/-- The event, if any, of each observation of a run of one key (40_debounce_scan R109). -/
def historyEvents (h : BitVec 8) : List Bool → List (Option EventKind)
  | [] => []
  | b :: rest => patternEvent (shiftHistory h b) :: historyEvents (shiftHistory h b) rest

/-- The KEY.DIGIT operation of a decimal digit (43_setpoint_entry R171). -/
def digitKey (d : Fin 10) : Instr :=
  if d.val < 8 then .keyDigitLow (BitVec.ofNat 3 d.val) else .keyDigitHigh (BitVec.ofNat 1 (d.val - 8))

/-- The registers that drive the motor and those that are computed from keys alone agree (90_conflicts C14). -/
abbrev State.SameDrive (s t : State) : Prop :=
  s.cfg = t.cfg ∧ s.entry = t.entry ∧ s.setpoints = t.setpoints ∧ s.latch = t.latch ∧ s.output = t.output

/-- Nothing was lost and no word was refused between two states of a run (10_state R48, R49; 41_event_queue R140). -/
def CleanBetween (s t : State) : Prop := t.lost = s.lost ∧ t.refused = s.refused

end Sys2Proof.Machine
end

