-- ==== Sys2Proof/Certificates/Slice0/Obligations.lean ====
section
/-!
DEFINITION. The statements for the provers, from the numbered rules of spec/.
-/

open Sys2Proof Sys2Proof.Machine

/-! ### Encoding (30_encoding) -/

/-- A few words written out from 30_encoding R87 and 95_test_vectors decode to the operations they stand for. -/
def Obligations.WordsOfTheVectorsDecode : Prop :=
  decode ArrowMap.default 0x1002#16 = .ok (.scanTick 0b0010#4) ∧
  decode ArrowMap.default 0x24CD#16 = .ok (.speedTick 1229#12) ∧
  decode ArrowMap.default 0x3000#16 = .ok .controlTick ∧
  decode ArrowMap.default 0x4000#16 = .ok .edge ∧
  decode ArrowMap.default 0x5000#16 = .ok .pop ∧
  decode ArrowMap.default 0x6037#16 = .ok (.keyDigitLow 7#3) ∧
  decode ArrowMap.default 0x6039#16 = .ok (.keyDigitHigh 1#1) ∧
  decode ArrowMap.default 0x6041#16 = .ok .keyUp ∧
  decode ArrowMap.default 0x6023#16 = .ok .keyCommit ∧
  decode ArrowMap.default 0x602A#16 = .ok .keyStartstop ∧
  decode ArrowMap.default 0x6045#16 = .ok (.keyOther 0x45#8) ∧
  decode ArrowMap.default 0x7000#16 = .ok .reset ∧
  decode ArrowMap.default 0x6100#16 = .error .mbzNonzero ∧
  decode ArrowMap.default 0xF123#16 = .error .reservedOpcode

/-- Decode and encode agree on every well-formed instruction, under every ARROW_MAP. -/
def Obligations.DecodeOfEncodeIsTheInstruction : Prop :=
  ∀ (am : ArrowMap) (i : Instr), i.wellFormed = true → decode am (encode am i) = .ok i

/-- Every word that decodes is the encoding of what it decodes to, which is well formed: no bit is dropped and no
operation has two words. -/
def Obligations.DecodedWordIsItsEncoding : Prop :=
  ∀ (am : ArrowMap) (w : Word) (i : Instr), decode am w = .ok i → i.wellFormed = true ∧ encode am i = w

/-- 30_encoding R89: exactly the reserved opcodes and the nonzero MBZ bits are refused; a refused word changes no
register and sets the `refused` mark. -/
def Obligations.RefusedWordsAreTheReservedOnes : Prop :=
  (∀ (am : ArrowMap) (w : Word),
    (∃ why, decode am w = .error why) ↔
      (w.extractLsb' 12 4 = 0x0#4 ∨ 0x8#4 ≤ w.extractLsb' 12 4 ∨
       (w.extractLsb' 12 4 = 0x1#4 ∧ w.extractLsb' 4 8 ≠ 0#8) ∨
       (w.extractLsb' 12 4 = 0x6#4 ∧ w.extractLsb' 8 4 ≠ 0#4) ∨
       (w.extractLsb' 12 4 ∈ [0x3#4, 0x4#4, 0x5#4, 0x7#4] ∧ w.extractLsb' 0 12 ≠ 0#12))) ∧
  (∀ (s : State) (w : Word) (rest : List Issue) (why : DecodeReject),
    s.inbox = .port w :: rest → decode s.cfg.arrowMap w = .error why →
      step s = .next { s with inbox := rest, refused := true })

/-- 30_encoding R90: every KEY word is legal whatever its code, an unknown code is OTHER and has no effect, and every
RAW and every ROWS value is legal. -/
def Obligations.EveryOperandValueIsLegal : Prop :=
  (∀ (am : ArrowMap) (w : Word), w.extractLsb' 12 4 = 0x6#4 → w.extractLsb' 8 4 = 0#4 →
    ∃ i, decode am w = .ok i) ∧
  (∀ (am : ArrowMap) (code : KeyCode), isSymbolCode code = false →
    decode am (0x6000#16 + code.setWidth 16) = .ok (.keyOther code)) ∧
  (∀ (code : KeyCode) (s : State), exec (.keyOther code) s = .next s) ∧
  (∀ (am : ArrowMap) (raw : BitVec 12), decode am (0x2000#16 + raw.setWidth 16) = .ok (.speedTick raw)) ∧
  (∀ (am : ArrowMap) (rows : BitVec 4), decode am (0x1000#16 + rows.setWidth 16) = .ok (.scanTick rows))

/-- 30_encoding R86: the symbol class of every code, the arrows as ARROW_MAP says (R85); OTHER has no effect. -/
def Obligations.KeySubDecodeGivesTheSymbolClass : Prop :=
  ∀ (am : ArrowMap) (code : KeyCode),
    (∀ d : Nat, d ≤ 7 → code.toNat = 0x30 + d → decodeKey am code = .keyDigitLow (BitVec.ofNat 3 d)) ∧
    (∀ d : Nat, 8 ≤ d → d ≤ 9 → code.toNat = 0x30 + d → decodeKey am code = .keyDigitHigh (BitVec.ofNat 1 (d - 8))) ∧
    (code = 0x41#8 → decodeKey am code = if am.upIsA then .keyUp else .keyDown) ∧
    (code = 0x42#8 → decodeKey am code = if am.upIsA then .keyDown else .keyUp) ∧
    (code = 0x43#8 → decodeKey am code = if am.leftIsC then .keyLeft else .keyRight) ∧
    (code = 0x44#8 → decodeKey am code = if am.leftIsC then .keyRight else .keyLeft) ∧
    (code = 0x23#8 → decodeKey am code = .keyCommit) ∧
    (code = 0x2A#8 → decodeKey am code = .keyStartstop) ∧
    ((code.toNat ≤ 0x22 ∨ (0x24 ≤ code.toNat ∧ code.toNat ≤ 0x29) ∨ (0x2B ≤ code.toNat ∧ code.toNat ≤ 0x2F) ∨
      (0x3A ≤ code.toNat ∧ code.toNat ≤ 0x40) ∨ 0x45 ≤ code.toNat) →
      decodeKey am code = .keyOther code ∧ ∀ s : State, exec (.keyOther code) s = .next s)

/-- An operation as written in text (30_encoding R91) is an assembly error exactly when its operand is out of range,
and otherwise its word decodes to the operation. -/
def Obligations.AssembledOperationsDecode : Prop :=
  (∀ n, (AsmOp.scan n).word = none ↔ 15 < n) ∧ (∀ n, (AsmOp.speed n).word = none ↔ 4095 < n) ∧
  (∀ n, (AsmOp.key n).word = none ↔ 255 < n) ∧
  (∀ (am : ArrowMap) n w, (AsmOp.scan n).word = some w → decode am w = .ok (.scanTick (BitVec.ofNat 4 n))) ∧
  (∀ (am : ArrowMap) n w, (AsmOp.speed n).word = some w → decode am w = .ok (.speedTick (BitVec.ofNat 12 n))) ∧
  (∀ (am : ArrowMap) n w, (AsmOp.key n).word = some w → decode am w = .ok (decodeKey am (BitVec.ofNat 8 n)))

/-! ### Steps and agents (00_scope, 20_memory, 60_exceptions) -/

/-- A step takes the next issue, runs exec of the instruction its word decodes to, and lets the issuing agent settle. -/
def Obligations.StepRunsTheDecodedInstruction : Prop :=
  ∀ (s t : State) (i : Instr), decode s.cfg.arrowMap s.presentedWord = .ok i → exec i s.takeIssue = .next t →
    step s = .next (settleIssue s.nextIssue t)

/-- A word scheduled by withFetchWord is the next one performed, and the step is exactly that operation. -/
def Obligations.ScheduledWordRunsNext : Prop :=
  ∀ (s t : State) (w : Word) (i : Instr), decode s.cfg.arrowMap w = .ok i → exec i s = .next t →
    step (s.withFetchWord 16 w.toNat) = .next t

/-- 60_exceptions R230: every operation completes and no step faults or stops. -/
def Obligations.NoOperationStopsTheBlock : Prop :=
  (∀ (i : Instr) (s : State), ∃ t, exec i s = .next t) ∧ ∀ s : State, ∃ t, step s = .next t

/-- 00_scope R9: the consumer's loop. Polling, its operation is POP, and a popped Press is what it dispatches next;
dispatching, its operation is KEY of the popped code and it polls again. The fields that hold the consumer's place and
the popped word are the model's (log 3), and the third clause, that no other agent's step moves the consumer, a POP at
the port included, is the model's choice (log 5, DESIGN CHOICE): R9 does not say it. -/
def Obligations.ConsumerPopsThenDispatchesPresses : Prop :=
  (∀ s t : State, s.nextIssue = .consumer → s.consumer = .polling → exec .pop s.takeIssue = .next t →
    step s = .next { t with
      consumer := if t.popResult.getLsbD 9 && t.popResult.getLsbD 8 then .dispatching (t.popResult.extractLsb' 0 8)
        else .polling }) ∧
  (∀ (s t : State) (code : KeyCode), s.nextIssue = .consumer → s.consumer = .dispatching code →
    exec (decodeKey s.cfg.arrowMap code) s.takeIssue = .next t →
    step s = .next { t with consumer := .polling }) ∧
  (∀ s t : State, s.nextIssue ≠ .consumer → step s = .next t → t.consumer = s.consumer)

/-- 30_encoding R93: the ROWS operand is the row pins after ROW_POL, and the column lines are the column drive under
COL_POL, whatever the two polarities are (they are free values: log 10). -/
def Obligations.PinsAreNormalizedByPolarity : Prop :=
  (∀ (am : ArrowMap) (c : Consumer) (pins : BitVec 4),
    decode am (issueWord am c (.scan pins)) =
      .ok (.scanTick (match Config.rowPol with | .activeHigh => pins | .activeLow => ~~~pins))) ∧
  (∀ s : State, s.columnLines = match Config.colPol with | .activeHigh => s.colDrive | .activeLow => ~~~s.colDrive)

/-- 10_state R45: no step changes the parameters of the run. -/
def Obligations.ParametersAreFixedForARun : Prop :=
  ∀ s t : State, step s = .next t → t.cfg = s.cfg

/-- 10_state R22, R23, R25, R26, R28 to R43, R48, R49: each register is written only by the operations its rule
names. `qin` has the producer, `qout` the consumer, and a slot both (R25, R26); each setpoint has the COMMIT on its own
row (R36 to R38). -/
def Obligations.RegistersHaveOnlyTheirWriters : Prop :=
  ∀ (i : Instr) (s t : State), exec i s = .next t →
    (t.scan ≠ s.scan → i = .reset ∨ ∃ rows, i = .scanTick rows) ∧
    (t.queue.qslot ≠ s.queue.qslot → i = .reset ∨ i = .pop ∨ ∃ rows, i = .scanTick rows) ∧
    (t.queue.qin ≠ s.queue.qin → i = .reset ∨ ∃ rows, i = .scanTick rows) ∧
    (t.queue.qout ≠ s.queue.qout → i = .reset ∨ i = .pop) ∧
    (t.speed ≠ s.speed → i = .reset ∨ ∃ raw, i = .speedTick raw) ∧
    (t.setpoints.spVolt ≠ s.setpoints.spVolt → i = .reset ∨ (i = .keyCommit ∧ s.entry.curRow = 0#2)) ∧
    (t.setpoints.spSpeed ≠ s.setpoints.spSpeed → i = .reset ∨ (i = .keyCommit ∧ s.entry.curRow = 1#2)) ∧
    (t.setpoints.spMax ≠ s.setpoints.spMax → i = .reset ∨ (i = .keyCommit ∧ s.entry.curRow = 2#2)) ∧
    (t.latch.running ≠ s.latch.running ∨ t.latch.pwmEnabled ≠ s.latch.pwmEnabled →
      i = .reset ∨ i = .edge ∨ i = .keyStartstop) ∧
    (t.latch.vth ≠ s.latch.vth → i = .reset ∨ i = .controlTick) ∧
    (t.output ≠ s.output → i = .reset ∨ i = .controlTick) ∧
    (t.entry.digBuf ≠ s.entry.digBuf →
      i = .reset ∨ i = .keyCommit ∨ (∃ d, i = .keyDigitLow d) ∨ ∃ d, i = .keyDigitHigh d) ∧
    (t.entry.curRow ≠ s.entry.curRow → i = .reset ∨ i = .keyCommit ∨ i = .keyUp ∨ i = .keyDown) ∧
    (t.entry.curCol ≠ s.entry.curCol →
      i = .reset ∨ i = .keyCommit ∨ i = .keyLeft ∨ i = .keyRight ∨ i = .controlTick) ∧
    (t.entry.digitEntered ≠ s.entry.digitEntered →
      i = .reset ∨ i = .keyCommit ∨ i = .controlTick ∨ (∃ d, i = .keyDigitLow d) ∨ ∃ d, i = .keyDigitHigh d) ∧
    (t.lost ≠ s.lost → ∃ rows, i = .scanTick rows) ∧
    t.refused = s.refused

/-! ### Debounce and scan (40_debounce_scan) -/

/-- 40_debounce_scan R102 to R106: SCAN_TICK completes; the histories of the driven column shift, the other twelve
stay; Presses and Releases are enqueued by the old histories and the samples, in ascending row order, with KEYMAP's
codes; the column advances; nothing else changes but what `Enqueue` writes. The second clause says that the tests on the
old history (`keyEvent`) are the pattern tests on the new one. -/
def Obligations.ScanTickShiftsThenEnqueuesItsEvents : Prop :=
  (∀ (rows : BitVec 4) (s : State),
    exec (.scanTick rows) s =
      .next ((scanEvents s.cfg rows s.scan).foldl (fun x e => enqueue e x)
        { s with scan := scanUnitAfter rows s.scan })) ∧
  (∀ (h : BitVec 8) (b : Bool),
    ((h <<< 1) ||| (BitVec.ofBool b).setWidth 8 = 0x01#8 ↔ b = true ∧ h.extractLsb' 0 7 = 0x00#7) ∧
    ((h <<< 1) ||| (BitVec.ofBool b).setWidth 8 = 0xFE#8 ↔ b = false ∧ h.extractLsb' 0 7 = 0x7F#7))

/-- 40_debounce_scan R108, 30_encoding R92: four SCAN_TICKs observe every key exactly once, each in its own column's
tick, and the driven column is back where it was. -/
def Obligations.FrameObservesEveryKeyOnce : Prop :=
  ∀ (s : State) (m0 m1 m2 m3 : BitVec 4), ∃ t : State,
    execAll (frameOps m0 m1 m2 m3) s = .next t ∧ t.scan.scanCol = s.scan.scanCol ∧
    ∀ (c : BitVec 2) (r : Fin 4),
      t.scan.hist.get (keyIndex c r) =
        shiftHistory (s.scan.hist.get (keyIndex c r))
          (([m0, m1, m2, m3].getD (c - s.scan.scanCol).toNat 0#4).getLsbD r.val)

/-- 40_debounce_scan R109 (b): from the all-zero history a run of pressed observations makes exactly one Press, at the
first of them, and no Release. -/
def Obligations.HeldKeyMakesOnePress : Prop :=
  ∀ n : Nat, historyEvents 0x00#8 (List.replicate (n + 1) true) = some .press :: List.replicate n none

/-- 40_debounce_scan R109 (a), (c): an observation makes a Press exactly when it is pressed and the seven before it
were released, and a Release exactly when it is released and the seven before it were pressed, whatever came before. -/
def Obligations.EventNeedsSevenSteadyObservations : Prop :=
  ∀ (h : BitVec 8) (before seven : List Bool) (b : Bool), seven.length = 7 →
    (patternEvent (shiftHistory (historyAfter h (before ++ seven)) b) = some .press ↔
      b = true ∧ seven = List.replicate 7 false) ∧
    (patternEvent (shiftHistory (historyAfter h (before ++ seven)) b) = some .release ↔
      b = false ∧ seven = List.replicate 7 true)

/-- 10_state R24: exactly one column line is driven, the one of `scanCol`, and SCAN_TICK drives the next. -/
def Obligations.ExactlyTheScanColumnIsDriven : Prop :=
  (∀ (s : State) (c : Nat), s.colDrive.getLsbD c = decide (c = s.scan.scanCol.toNat)) ∧
  (∀ (s t : State) (rows : BitVec 4), exec (.scanTick rows) s = .next t →
    t.colDrive = s.colDrive.rotateLeft 1)

/-! ### Event queue (41_event_queue) -/

/-- 41_event_queue R133, R135: POP returns the slot at `qout`, clears it and advances `qout`; from an empty slot it
returns 0x0000 and changes nothing but its own result. -/
def Obligations.PopReturnsAndClearsTheOutputSlot : Prop :=
  ∀ s : State,
    ((slotAt s.queue s.queue.qout).getLsbD 9 = true →
      exec .pop s = .next { s with
        popResult := (slotAt s.queue s.queue.qout).setWidth 16
        queue := { s.queue with
          qslot := s.queue.qslot.set s.queue.qout 0#10, qout := (s.queue.qout + 1) % s.cfg.qcap } }) ∧
    ((slotAt s.queue s.queue.qout).getLsbD 9 = false → exec .pop s = .next { s with popResult := 0x0000#16 })

/-- 41_event_queue R134, with QPush of R132 written out: Enqueue into a free slot, and into a full one under each
policy. -/
def Obligations.EnqueueFollowsTheFullPolicy : Prop :=
  ∀ (e : KeyEvent) (s : State),
    let pushed : QueueUnit := { s.queue with
      qslot := s.queue.qslot.set s.queue.qin (1#1 ++ (if e.kind = .press then 1#1 else 0#1) ++ e.key)
      qin := (s.queue.qin + 1) % s.cfg.qcap }
    ((slotAt s.queue s.queue.qin).getLsbD 9 = false → enqueue e s = { s with queue := pushed }) ∧
    ((slotAt s.queue s.queue.qin).getLsbD 9 = true → s.cfg.enqFullPolicy = .drop →
      enqueue e s = { s with lost := s.lost + 1 }) ∧
    ((slotAt s.queue s.queue.qin).getLsbD 9 = true → s.cfg.enqFullPolicy = .overwrite →
      enqueue e s = { s with lost := s.lost + 1, queue := pushed })

/-- 41_event_queue R137: under Drop every step keeps INV_Q. -/
def Obligations.QueueAlignmentIsKeptUnderDrop : Prop :=
  ∀ s t : State, s.cfg.Valid → s.cfg.enqFullPolicy = .drop → s.Shaped → s.QueueAligned → step s = .next t →
    t.QueueAligned

/-- 41_event_queue R137: an aligned queue is a first-in first-out queue of its unread events: Enqueue appends while
there is room and under Drop changes nothing else but `lost`, POP takes the oldest. -/
def Obligations.AlignedQueueIsFirstInFirstOut : Prop :=
  ∀ s : State, s.cfg.Valid → s.Shaped → s.QueueAligned →
    (∀ e : KeyEvent, (queueContents s.cfg s.queue).length < s.cfg.qcap →
      queueContents s.cfg (enqueue e s).queue = queueContents s.cfg s.queue ++ [e.slot] ∧
      (enqueue e s).lost = s.lost) ∧
    (∀ e : KeyEvent, (queueContents s.cfg s.queue).length = s.cfg.qcap → s.cfg.enqFullPolicy = .drop →
      enqueue e s = { s with lost := s.lost + 1 }) ∧
    (∀ (v : Slot) (rest : List Slot), queueContents s.cfg s.queue = v :: rest →
      ∃ t, exec .pop s = .next t ∧ t.popResult = v.setWidth 16 ∧ queueContents t.cfg t.queue = rest) ∧
    (queueContents s.cfg s.queue = [] → exec .pop s = .next { s with popResult := 0x0000#16 })

/-- 41_event_queue R139: from an empty aligned queue, N ≤ QCAP Enqueues and then N POPs return the N events in order,
under either policy; here the last POP of each prefix is the event it should be. -/
def Obligations.EventsComeOutInTheOrderTheyWentIn : Prop :=
  ∀ (s : State) (events : List KeyEvent) (n : Nat) (e : KeyEvent),
    s.cfg.Valid → s.Shaped → s.QueueAligned → validCount s.queue = 0 →
    events.length ≤ s.cfg.qcap → events[n]? = some e →
    ∃ t, execAll (repeatOp (n + 1) .pop) (events.foldl (fun x a => enqueue a x) s) = .next t ∧
      t.popResult = e.slot.setWidth 16 ∧ t.lost = s.lost

/-- 41_event_queue R138, 70_reset R271: with two slots under Overwrite, an event C into the full queue A, B loses A and
comes out first; the next event D is then stuck behind the output index until a further event E arrives, after which the
POPs return E and then D. -/
def Obligations.OverwriteMisalignsATwoSlotQueue : Prop :=
  ∀ (s : State) (a b c d e : KeyEvent), s.cfg.qcap = 2 → s.cfg.enqFullPolicy = .overwrite →
    s.queue = { qslot := [a.slot, b.slot], qin := 0, qout := 0 } →
    ∃ t1 t2 t3 t4 t5 t6,
      exec .pop (enqueue c s) = .next t1 ∧ t1.popResult = c.slot.setWidth 16 ∧ t1.lost = s.lost + 1 ∧
      exec .pop t1 = .next t2 ∧ t2.popResult = b.slot.setWidth 16 ∧
      exec .pop t2 = .next t3 ∧ t3.popResult = 0x0000#16 ∧
      exec .pop (enqueue d t3) = .next t4 ∧ t4.popResult = 0x0000#16 ∧ validCount t4.queue = 1 ∧
      exec .pop (enqueue e t4) = .next t5 ∧ t5.popResult = e.slot.setWidth 16 ∧
      exec .pop t5 = .next t6 ∧ t6.popResult = d.slot.setWidth 16 ∧ t6.lost = s.lost + 1

/-- 70_reset R271: once `qin` and `qout` are misaligned they stay so over every step that is not RESET and overwrites
nothing; RESET aligns them. A further overwrite is the exception the model makes (log 19, DESIGN CHOICE): R271 names
RESET alone. -/
def Obligations.MisalignmentLastsUntilResetOrOverwrite : Prop :=
  (∀ s t : State, s.cfg.Valid → s.Shaped → s.queue.qin ≠ (s.queue.qout + validCount s.queue) % s.cfg.qcap →
    step s = .next t → s.presentedWord ≠ 0x7000#16 → t.lost = s.lost →
    t.queue.qin ≠ (t.queue.qout + validCount t.queue) % t.cfg.qcap ∧ ¬ t.QueueAligned) ∧
  ∀ s : State, s.cfg.Valid → ∃ t, exec .reset s = .next t ∧ t.QueueAligned

/-- The model's choice where 41_event_queue R138 and 70_reset R271 disagree with the pseudocode of R132 and R134 (log
19, DESIGN CHOICE): of a full aligned queue under Overwrite, each further event counts one lost, INV_Q fails after one
to QCAP - 1 of them, and the QCAP-th restores it, with no RESET: the queue then holds those QCAP events, in order. -/
def Obligations.OverwritesRealignAfterQcapOfThem : Prop :=
  ∀ (s : State) (events : List KeyEvent),
    s.cfg.Valid → s.cfg.enqFullPolicy = .overwrite → s.Shaped → s.QueueAligned → validCount s.queue = s.cfg.qcap →
    events.length ≤ s.cfg.qcap →
    let t := events.foldl (fun x e => enqueue e x) s
    t.lost = s.lost + events.length ∧ validCount t.queue = s.cfg.qcap ∧
    (t.QueueAligned ↔ events.length = 0 ∨ events.length = s.cfg.qcap) ∧
    (events.length = s.cfg.qcap → queueContents t.cfg t.queue = events.map KeyEvent.slot)

/-- 40_debounce_scan R107, 41_event_queue R134: in an aligned queue under Drop every event of a SCAN_TICK is either
queued or counted in `lost`, and at most four are lost. -/
def Obligations.EventsAreQueuedOrCountedLost : Prop :=
  ∀ (s t : State) (rows : BitVec 4), s.cfg.Valid → s.cfg.enqFullPolicy = .drop → s.Shaped → s.QueueAligned →
    exec (.scanTick rows) s = .next t →
    validCount t.queue + t.lost = validCount s.queue + s.lost + (scanEvents s.cfg rows s.scan).length ∧
    validCount t.queue = min s.cfg.qcap (validCount s.queue + (scanEvents s.cfg rows s.scan).length) ∧
    t.lost ≤ s.lost + 4

/-- 41_event_queue R136: waiting on an empty output slot never ends by itself; with an event there it ends at the
first POP. -/
def Obligations.WaitPopEndsOnlyOnAnEvent : Prop :=
  (∀ (n : Nat) (s : State), emptyAtOut s.queue = true → waitPop n s = none) ∧
  (∀ (n : Nat) (s : State), emptyAtOut s.queue = true →
    execAll (repeatOp (n + 1) .pop) s = .next { s with popResult := 0x0000#16 }) ∧
  (∀ (n : Nat) (s : State), emptyAtOut s.queue = false →
    ∃ t, waitPop (n + 1) s = some t ∧ exec .pop s = .next t)

/-! ### Speed estimator (42_speed_estimator) -/

/-- 42_speed_estimator R152 to R157: SPEED_TICK completes, and what it leaves in the speed unit, case by case; nothing
else changes. The estimate fits its register, so it is given as a number. -/
def Obligations.SpeedTickCountsCrossesAndStalls : Prop :=
  ∀ (s : State) (raw : BitVec 12), s.cfg.Valid → s.Shaped →
    let e := min (s.speed.elapsed.toNat + 1) (2 ^ 32 - 1)
    let rising : Prop := s.speed.spState = .below ∧ s.cfg.threshRaw ≤ raw.toNat
    let belowAfter : Prop := raw.toNat < s.cfg.threshRaw
    ∃ u : SpeedUnit, exec (.speedTick raw) s = .next { s with speed := u } ∧
      (rising →
        u.spState = .above ∧ u.elapsed = 0#32 ∧
        (s.cfg.boxcarN = 1 →
          u.rpm.toNat = rhu (6000 * s.cfg.tps) e ∧ u.rpmHist = s.speed.rpmHist ∧ u.rpmIdx = s.speed.rpmIdx) ∧
        (1 < s.cfg.boxcarN →
          u.rpmHist = s.speed.rpmHist.set s.speed.rpmIdx (BitVec.ofNat 32 (rhu (6000 * s.cfg.tps) e)) ∧
          u.rpmIdx = (s.speed.rpmIdx + 1) % s.cfg.boxcarN ∧
          u.rpm.toNat = rhu (u.rpmHist.map BitVec.toNat).sum s.cfg.boxcarN)) ∧
      (¬ rising →
        u.elapsed.toNat = e ∧
        (belowAfter → u.spState = .below) ∧ (¬ belowAfter → u.spState = .above) ∧
        (belowAfter ∧ s.cfg.stallTicks < e →
          u.rpm = 0#32 ∧
          (1 < s.cfg.boxcarN → u.rpmHist = List.replicate s.cfg.boxcarN 0#32 ∧ u.rpmIdx = 0) ∧
          (s.cfg.boxcarN = 1 → u.rpmHist = s.speed.rpmHist ∧ u.rpmIdx = s.speed.rpmIdx)) ∧
        (¬ (belowAfter ∧ s.cfg.stallTicks < e) →
          u.rpm = s.speed.rpm ∧ u.rpmHist = s.speed.rpmHist ∧ u.rpmIdx = s.speed.rpmIdx))

/-- 42_speed_estimator R158: `elapsed` is at least 1 whenever a crossing is tested, so the division guard is never
taken. -/
def Obligations.CrossingNeverDividesByZero : Prop :=
  ∀ (p : Params) (u : SpeedUnit),
    1 ≤ (countTick u).elapsed.toNat ∧
    instantRpm p (countTick u).elapsed = BitVec.ofNat 32 (rhu (6000 * p.tps) (countTick u).elapsed.toNat)

/-- 42_speed_estimator R156, R159: while the samples stay above threshold in AboveThreshold no stall is detected:
`rpm` is kept for ever and `elapsed` counts up and saturates. -/
def Obligations.SteadyHighSignalKeepsRpm : Prop :=
  ∀ (raws : List (BitVec 12)) (s : State), s.speed.spState = .above →
    (∀ raw ∈ raws, s.cfg.threshRaw ≤ raw.toNat) →
    ∃ t, execAll (raws.map .speedTick) s = .next t ∧
      t = { s with speed := { s.speed with elapsed := t.speed.elapsed } } ∧
      t.speed.elapsed.toNat = min (s.speed.elapsed.toNat + raws.length) (2 ^ 32 - 1)

/-- 42_speed_estimator R156 and the source's §8 property on stalls: samples that stay below threshold until `elapsed`
is past STALL_TICKS leave `rpm` 0. -/
def Obligations.SilenceForcesRpmToZero : Prop :=
  ∀ (raws : List (BitVec 12)) (s : State),
    (∀ raw ∈ raws, raw.toNat < s.cfg.threshRaw) → raws ≠ [] → s.cfg.stallTicks < 2 ^ 32 - 1 →
    s.cfg.stallTicks < s.speed.elapsed.toNat + raws.length →
    ∃ t, execAll (raws.map .speedTick) s = .next t ∧ t.speed.rpm = 0#32 ∧ t.speed.spState = .below

/-- 42_speed_estimator R154, R160: with no averaging, k samples above and m ≥ 1 below after a rising crossing, then one
above, give `rpm` = rhu(6000*TPS, k + m + 1). -/
def Obligations.CrossingIntervalGivesRpm : Prop :=
  ∀ (highs lows : List (BitVec 12)) (last : BitVec 12) (s : State), s.cfg.Valid → s.cfg.boxcarN = 1 →
    s.speed.spState = .above → s.speed.elapsed = 0#32 →
    (∀ raw ∈ highs, s.cfg.threshRaw ≤ raw.toNat) → (∀ raw ∈ lows, raw.toNat < s.cfg.threshRaw) → lows ≠ [] →
    s.cfg.threshRaw ≤ last.toNat → highs.length + lows.length + 1 < 2 ^ 32 →
    ∃ t, execAll ((highs ++ lows ++ [last]).map .speedTick) s = .next t ∧
      t.speed.rpm.toNat = rhu (6000 * s.cfg.tps) (highs.length + lows.length + 1) ∧
      t.speed.elapsed = 0#32 ∧ t.speed.spState = .above

/-! ### Numeric entry (43_setpoint_entry) -/

/-- 43_setpoint_entry R171: a digit, of either row of the table, goes into the slot at `curCol` and sets
`digitEntered`; nothing else changes, the cursor least of all: it advances, clamped, at the next CONTROL_TICK. -/
def Obligations.DigitKeyWritesTheCursorSlot : Prop :=
  ∀ (s : State) (i : Instr) (d : Nat), s.entry.curCol.toNat ≤ 4 →
    ((∃ x : BitVec 3, i = .keyDigitLow x ∧ d = x.toNat) ∨ (∃ x : BitVec 1, i = .keyDigitHigh x ∧ d = 8 + x.toNat)) →
    ∃ (buf : Vector (BitVec 4) 5) (t u : State),
      t = { s with entry := { s.entry with digBuf := buf, digitEntered := true } } ∧
      exec i s = .next t ∧
      (∀ j : Fin 5, (buf.get j).toNat = if j.val = s.entry.curCol.toNat then d else (s.entry.digBuf.get j).toNat) ∧
      exec .controlTick t = .next u ∧ u.entry.curCol.toNat = min (s.entry.curCol.toNat + 1) 4 ∧
      u.entry.digitEntered = false

/-- 43_setpoint_entry R172 to R175: each arrow moves the cursor by one, clamped, and changes nothing else. -/
def Obligations.ArrowsMoveTheCursorClamped : Prop :=
  ∀ s : State,
    (∃ row : BitVec 2, exec .keyUp s = .next { s with entry := { s.entry with curRow := row } } ∧
      row.toNat = s.entry.curRow.toNat - 1) ∧
    (∃ row : BitVec 2, exec .keyDown s = .next { s with entry := { s.entry with curRow := row } } ∧
      row.toNat = min (s.entry.curRow.toNat + 1) 2) ∧
    (∃ col : BitVec 3, exec .keyLeft s = .next { s with entry := { s.entry with curCol := col } } ∧
      col.toNat = s.entry.curCol.toNat - 1) ∧
    (∃ col : BitVec 3, exec .keyRight s = .next { s with entry := { s.entry with curCol := col } } ∧
      col.toNat = min (s.entry.curCol.toNat + 1) 4)

/-- 43_setpoint_entry R176, R177: COMMIT stores the five-digit value in the setpoint of the cursor's row, clears the
buffer, moves to the next row with wrap and to column 0, clears the digit flag, and changes nothing else. -/
def Obligations.CommitStoresTheBufferValue : Prop :=
  ∀ s : State, s.entry.curRow.toNat ≤ 2 → (∀ i : Fin 5, (s.entry.digBuf.get i).toNat ≤ 9) →
    ∃ sp : Setpoints, ∃ row : BitVec 2,
      exec .keyCommit s = .next { s with
        setpoints := sp
        entry := { curRow := row, curCol := 0#3, digBuf := Vector.replicate 5 0#4, digitEntered := false } } ∧
      row.toNat = (s.entry.curRow.toNat + 1) % 3 ∧
      let n := 10000 * (s.entry.digBuf.get 0).toNat + 1000 * (s.entry.digBuf.get 1).toNat +
        100 * (s.entry.digBuf.get 2).toNat + 10 * (s.entry.digBuf.get 3).toNat + (s.entry.digBuf.get 4).toNat
      n ≤ 99999 ∧
      sp.spVolt.toNat = (if s.entry.curRow = 0#2 then n else s.setpoints.spVolt.toNat) ∧
      sp.spSpeed.toNat = (if s.entry.curRow = 1#2 then n else s.setpoints.spSpeed.toNat) ∧
      sp.spMax.toNat = (if s.entry.curRow = 2#2 then n else s.setpoints.spMax.toNat)

/-- 43_setpoint_entry R171, R176 with 44_duty_controller R201: from column 0, five digits each followed by a
CONTROL_TICK, then COMMIT, store exactly the typed number in the setpoint of the row. -/
def Obligations.TypedDigitsAreCommitted : Prop :=
  ∀ (s : State) (d0 d1 d2 d3 d4 : Fin 10), s.entry.curCol = 0#3 → s.entry.digitEntered = false →
    ∃ t, execAll [digitKey d0, .controlTick, digitKey d1, .controlTick, digitKey d2, .controlTick,
        digitKey d3, .controlTick, digitKey d4, .controlTick, .keyCommit] s = .next t ∧
      let n := 10000 * d0.val + 1000 * d1.val + 100 * d2.val + 10 * d3.val + d4.val
      (s.entry.curRow = 0#2 → t.setpoints.spVolt.toNat = n) ∧
      (s.entry.curRow = 1#2 → t.setpoints.spSpeed.toNat = n) ∧
      (s.entry.curRow = 2#2 → t.setpoints.spMax.toNat = n)

/-- 70_reset R266: of two digits with no CONTROL_TICK between them the second replaces the first, and the cursor then
advances once. -/
def Obligations.SecondDigitReplacesTheFirst : Prop :=
  ∀ (s : State) (a b : Fin 10), s.entry.curCol.toNat ≤ 4 →
    ∃ t, execAll [digitKey a, digitKey b, .controlTick] s = .next t ∧
      execAll [digitKey b, .controlTick] s = .next t ∧
      t.entry.curCol.toNat = min (s.entry.curCol.toNat + 1) 4 ∧ t.entry.digitEntered = false

/-! ### Start/stop latch (44_duty_controller R206, R207) -/

/-- 44_duty_controller R206, R207 and 43_setpoint_entry R178: EDGE and KEY '*' perform Toggle and nothing else. -/
def Obligations.EdgeAndStartStopToggleTheLatch : Prop :=
  ∀ s : State, ∀ i ∈ [Instr.edge, Instr.keyStartstop],
    exec i s = .next { s with
      latch :=
        if s.latch.running = true ∨ s.latch.pwmEnabled = true then { running := false, pwmEnabled := false, vth := s.latch.vth }
        else if s.latch.vth = false then { running := true, pwmEnabled := true, vth := s.latch.vth }
        else s.latch }

/-- 20_memory R70: two Toggles with `vth` = 0, from either agent, leave the latch, and the whole state, as it was. -/
def Obligations.TwoTogglesRestoreTheLatch : Prop :=
  ∀ (s : State) (i j : Instr), i ∈ [Instr.edge, Instr.keyStartstop] → j ∈ [Instr.edge, Instr.keyStartstop] →
    s.latch.running = s.latch.pwmEnabled → s.latch.vth = false → execAll [i, j] s = .next s

/-- 44_duty_controller R209 (d): a step that sets the latch found `vth` = 0, and its word was EDGE or KEY '*'. -/
def Obligations.LatchIsNeverSetWhileTooHigh : Prop :=
  ∀ s t : State, step s = .next t → s.latch.pwmEnabled = false → t.latch.pwmEnabled = true →
    s.latch.vth = false ∧ (s.presentedWord = 0x4000#16 ∨ s.presentedWord = 0x602A#16)

/-! ### Duty-cycle controller (44_duty_controller) -/

/-- 44_duty_controller R200 to R204: CONTROL_TICK completes, and what it leaves in `vth`, the duties, the output
enable and the cursor; nothing else changes. -/
def Obligations.ControlTickMapsSetpointsToDuties : Prop :=
  ∀ s : State, s.cfg.Valid →
    let v := s.setpoints.spVolt.toNat
    ∃ (o : OutputStage) (e : EntryUnit),
      exec .controlTick s = .next { s with
        latch := { s.latch with vth := decide (s.cfg.ceilCv < v) }, output := o, entry := e } ∧
      o.pwmOutEn = s.latch.pwmEnabled ∧
      (s.latch.pwmEnabled = false → o.dutyHB = 0#14 ∧ o.dutyBoost = 0#14 ∧ o.dutyBuck = 0#14) ∧
      (s.latch.pwmEnabled = true →
        (v ≤ s.cfg.battCv → o.dutyBuck.toNat = rhu (10000 * v) s.cfg.battCv ∧ o.dutyBoost.toNat = 0) ∧
        (s.cfg.battCv < v ∧ v ≤ s.cfg.ceilCv →
          o.dutyBuck.toNat = 10000 ∧ o.dutyBoost.toNat = rhu (10000 * (v - s.cfg.battCv)) v) ∧
        (s.cfg.ceilCv < v → o.dutyBuck.toNat = 0 ∧ o.dutyBoost.toNat = 0 ∧ o.dutyHB.toNat = 0) ∧
        (v ≤ s.cfg.ceilCv ∧ s.setpoints.spMax.toNat = 0 → o.dutyHB.toNat = 0) ∧
        (v ≤ s.cfg.ceilCv ∧ s.setpoints.spMax.toNat ≠ 0 →
          o.dutyHB.toNat = min 10000 (rhu (10000 * s.setpoints.spSpeed.toNat) s.setpoints.spMax.toNat))) ∧
      e.curRow = s.entry.curRow ∧ e.digBuf = s.entry.digBuf ∧ e.digitEntered = false ∧
      e.curCol.toNat = if s.entry.digitEntered then min (s.entry.curCol.toNat + 1) 4 else s.entry.curCol.toNat

/-- 44_duty_controller R209 (f): with the default ceiling and battery values and the latch set, the boost duty is
nonzero exactly between 9 V and 24 V, where it is between 0.11 % and 62.50 % and the buck duty is full. -/
def Obligations.BoostRunsExactlyAboveTheBattery : Prop :=
  ∀ s t : State, s.cfg.battCv = 900 → s.cfg.ceilCv = 2400 → exec .controlTick s = .next t →
    (0 < t.output.dutyBoost.toNat ↔
      s.latch.pwmEnabled = true ∧ 900 < s.setpoints.spVolt.toNat ∧ s.setpoints.spVolt.toNat ≤ 2400) ∧
    (0 < t.output.dutyBoost.toNat →
      11 ≤ t.output.dutyBoost.toNat ∧ t.output.dutyBoost.toNat ≤ 6250 ∧ t.output.dutyBuck.toNat = 10000)

/-- 70_reset R267: a too-high voltage committed on row 0 leaves `vth` stale, a Toggle then sets the latch, and the
CONTROL_TICK after it sets `vth`, enables the stage and drives nothing. -/
def Obligations.StaleFlagStillDrivesNothing : Prop :=
  ∀ (s : State) (i : Instr), s.cfg.Valid → s.InRange → i ∈ [Instr.edge, Instr.keyStartstop] →
    s.entry.curRow = 0#2 → s.latch.pwmEnabled = false → s.latch.vth = false →
    s.cfg.ceilCv < bufferValue s.entry.digBuf →
    ∃ t u, execAll [.keyCommit, i] s = .next t ∧ t.latch = { running := true, pwmEnabled := true, vth := false } ∧
      exec .controlTick t = .next u ∧ u.latch = { running := true, pwmEnabled := true, vth := true } ∧
      u.output = { dutyHB := 0#14, dutyBoost := 0#14, dutyBuck := 0#14, pwmOutEn := true }

/-- 70_reset R268: a Toggle that clears the latch leaves the outputs as they were; the next CONTROL_TICK turns them
off. -/
def Obligations.StopTakesEffectAtTheNextControlTick : Prop :=
  ∀ (s : State) (i : Instr), i ∈ [Instr.edge, Instr.keyStartstop] → s.latch.running = true →
    ∃ t u, exec i s = .next t ∧ t.output = s.output ∧ t.latch.running = false ∧ t.latch.pwmEnabled = false ∧
      exec .controlTick t = .next u ∧
      u.output = { dutyHB := 0#14, dutyBoost := 0#14, dutyBuck := 0#14, pwmOutEn := false }

/-- 90_conflicts C14 and 43_setpoint_entry R181: the keypad histories, the queue, the speed estimator and the
counters do not reach the entry state, the setpoints, the latch or the outputs: two states that agree on those agree on
them after any same operation. -/
def Obligations.SpeedAndQueueDoNotReachTheDrive : Prop :=
  ∀ (i : Instr) (s s' t t' : State), s.SameDrive s' → exec i s = .next t → exec i s' = .next t' → t.SameDrive t'

/-! ### Reset and invariants (70_reset, 10_state R52) -/

/-- 70_reset R260: RESET writes every register its value, and changes neither `lost` and `refused` nor the parameters;
the power-on state is the state RESET leaves. That RESET leaves the model's own fields `popResult`, `consumer`, `inbox`
and `envTime` as they were is the model's (log 4, DEDUCED), and so are these fields' values at power-on (log 3). -/
def Obligations.ResetWritesEveryRegister : Prop :=
  (∀ s : State,
    exec .reset s = .next { s with
      scan := { hist := Vector.replicate 16 0x00#8, scanCol := 0#2 }
      queue := { qslot := List.replicate s.cfg.qcap 0#10, qin := 0, qout := 0 }
      speed := { spState := .below, elapsed := 0#32, rpm := 0#32,
                 rpmHist := List.replicate (if 1 < s.cfg.boxcarN then s.cfg.boxcarN else 0) 0#32, rpmIdx := 0 }
      entry := { curRow := 0#2, curCol := 0#3, digBuf := Vector.replicate 5 0#4, digitEntered := false }
      setpoints := { spVolt := 0#17, spSpeed := 0#17, spMax := 0#17 }
      latch := { running := false, pwmEnabled := false, vth := false }
      output := { dutyHB := 0#14, dutyBoost := 0#14, dutyBuck := 0#14, pwmOutEn := false } }) ∧
  exec .reset State.reset = .next State.reset

/-- 70_reset R262: under every valid choice of parameters, a CONTROL_TICK on the power-on state changes nothing. -/
def Obligations.ControlTickKeepsThePowerOnState : Prop :=
  ∀ p : Params, p.Valid → exec .controlTick (State.initial p) = .next (State.initial p)

/-- The power-on state is well shaped, in range and has an aligned queue, under every valid choice of parameters, the
defaults among them (70_reset R262). -/
def Obligations.PowerOnStateMeetsTheInvariants : Prop :=
  Params.default.Valid ∧ State.reset = State.initial Params.default ∧
  ∀ p : Params, p.Valid → (State.initial p).Shaped ∧ (State.initial p).InRange ∧ (State.initial p).QueueAligned

/-- 10_state R52: every step keeps the ranges and relations of the registers, whatever word is presented. -/
def Obligations.RangesAreKeptByEveryStep : Prop :=
  ∀ s t : State, s.InRange → step s = .next t → t.InRange

/-- 20_memory R62: every step keeps the arrays' lengths and the indices in range. -/
def Obligations.ShapeIsKeptByEveryStep : Prop :=
  ∀ s t : State, s.cfg.Valid → s.Shaped → step s = .next t → t.Shaped
end

