-- ==== Sys2Proof/Laws/Decode.lean ====
section
/-!
SUPPORT. The fields of the words the encoder writes (30_encoding R81, R82).
-/

namespace Sys2Proof

@[simp] theorem opcField_scan (rows : BitVec 4) : opcField (0x100#12 ++ rows) = 0x1#4 := by
  revert rows; decide

@[simp] theorem mbzR_scan (rows : BitVec 4) : mbzR (0x100#12 ++ rows) = 0 := by
  revert rows; decide

@[simp] theorem rowsField_scan (rows : BitVec 4) : rowsField (0x100#12 ++ rows) = rows := by
  revert rows; decide

@[simp] theorem opcField_speed (raw : BitVec 12) : opcField (0x2#4 ++ raw) = 0x2#4 := by
  apply BitVec.eq_of_getLsbD_eq
  intro i hi
  unfold opcField
  rw [BitVec.getLsbD_extractLsb', BitVec.getLsbD_append]
  simp [hi]

@[simp] theorem rawField_speed (raw : BitVec 12) : rawField (0x2#4 ++ raw) = raw := by
  apply BitVec.eq_of_getLsbD_eq
  intro i hi
  unfold rawField
  rw [BitVec.getLsbD_extractLsb', BitVec.getLsbD_append]
  simp [hi]

@[simp] theorem opcField_keyWord (code : KeyCode) : opcField (keyWord code) = 0x6#4 := by
  apply BitVec.eq_of_getLsbD_eq
  intro i hi
  unfold opcField keyWord
  rw [BitVec.getLsbD_extractLsb', BitVec.getLsbD_append]
  have : i = 0 ∨ i = 1 ∨ i = 2 ∨ i = 3 := by omega
  rcases this with rfl | rfl | rfl | rfl <;> rfl

@[simp] theorem mbzK_keyWord (code : KeyCode) : mbzK (keyWord code) = 0 := by
  apply BitVec.eq_of_getLsbD_eq
  intro i hi
  unfold mbzK keyWord
  rw [BitVec.getLsbD_extractLsb', BitVec.getLsbD_append]
  have : i = 0 ∨ i = 1 ∨ i = 2 ∨ i = 3 := by omega
  rcases this with rfl | rfl | rfl | rfl <;> rfl

@[simp] theorem codeField_keyWord (code : KeyCode) : codeField (keyWord code) = code := by
  apply BitVec.eq_of_getLsbD_eq
  intro i hi
  unfold codeField keyWord
  rw [BitVec.getLsbD_extractLsb', BitVec.getLsbD_append]
  simp [hi]

end Sys2Proof
end

