-- ==== Sys2Proof/Laws/PerInstr.lean ====
section
/-!
SUPPORT. A statement per instruction: the word of a well-formed instruction matches a row of the opcode table that
has the instruction's mnemonic, under the table's default ARROW_MAP (30_encoding R87).
-/

namespace Sys2Proof.Laws.EncodedInRow

/-- The encoded word lies in a row of the opcode table with the instruction's mnemonic. -/
def Statement (i : Instr) : Prop :=
  i.wellFormed = true →
    ∃ row ∈ opcodeRows, row.mnemonic = i.mnemonic ∧ row.matches (encode ArrowMap.default i) = true

/-- A word matches the KEY.OTHER row whatever its code. -/
theorem keyWord_matches_other (code : KeyCode) :
    (OpcodeRow.mk "KEY.OTHER" 0x6000#16 0xFF00#16).matches (keyWord code) = true := by
  revert code
  decide

/-- A SPEED_TICK word matches its row whatever the reading. -/
theorem speed_matches (raw : BitVec 12) :
    (OpcodeRow.mk "SPEED_TICK" 0x2000#16 0xF000#16).matches (0x2#4 ++ raw) = true := by
  unfold OpcodeRow.matches
  rw [beq_iff_eq, show 0xF000#16 = 0xF#4 ++ 0#12 from rfl, show 0x2000#16 = 0x2#4 ++ 0#12 from rfl,
    BitVec.and_append]
  simp

theorem scanTick (rows : BitVec 4) : Statement (.scanTick rows) := fun _ =>
  ⟨⟨"SCAN_TICK", 0x1000#16, 0xFFF0#16⟩, by simp [opcodeRows], rfl, by revert rows; decide⟩
theorem speedTick (raw : BitVec 12) : Statement (.speedTick raw) := fun _ =>
  ⟨⟨"SPEED_TICK", 0x2000#16, 0xF000#16⟩, by simp [opcodeRows], rfl, speed_matches raw⟩
theorem controlTick : Statement .controlTick := fun _ =>
  ⟨⟨"CONTROL_TICK", 0x3000#16, 0xFFFF#16⟩, by simp [opcodeRows], rfl, by decide⟩
theorem edge : Statement .edge := fun _ =>
  ⟨⟨"EDGE", 0x4000#16, 0xFFFF#16⟩, by simp [opcodeRows], rfl, by decide⟩
theorem pop : Statement .pop := fun _ =>
  ⟨⟨"POP", 0x5000#16, 0xFFFF#16⟩, by simp [opcodeRows], rfl, by decide⟩
theorem keyDigitLow (d : BitVec 3) : Statement (.keyDigitLow d) := fun _ =>
  ⟨⟨"KEY.DIGIT", 0x6030#16, 0xFFF8#16⟩, by simp [opcodeRows], rfl, by revert d; decide⟩
theorem keyDigitHigh (d : BitVec 1) : Statement (.keyDigitHigh d) := fun _ =>
  ⟨⟨"KEY.DIGIT", 0x6038#16, 0xFFFE#16⟩, by simp [opcodeRows], rfl, by revert d; decide⟩
theorem keyUp : Statement .keyUp := fun _ =>
  ⟨⟨"KEY.UP", 0x6041#16, 0xFFFF#16⟩, by simp [opcodeRows], rfl, by decide⟩
theorem keyDown : Statement .keyDown := fun _ =>
  ⟨⟨"KEY.DOWN", 0x6042#16, 0xFFFF#16⟩, by simp [opcodeRows], rfl, by decide⟩
theorem keyLeft : Statement .keyLeft := fun _ =>
  ⟨⟨"KEY.LEFT", 0x6043#16, 0xFFFF#16⟩, by simp [opcodeRows], rfl, by decide⟩
theorem keyRight : Statement .keyRight := fun _ =>
  ⟨⟨"KEY.RIGHT", 0x6044#16, 0xFFFF#16⟩, by simp [opcodeRows], rfl, by decide⟩
theorem keyCommit : Statement .keyCommit := fun _ =>
  ⟨⟨"KEY.COMMIT", 0x6023#16, 0xFFFF#16⟩, by simp [opcodeRows], rfl, by decide⟩
theorem keyStartstop : Statement .keyStartstop := fun _ =>
  ⟨⟨"KEY.STARTSTOP", 0x602A#16, 0xFFFF#16⟩, by simp [opcodeRows], rfl, by decide⟩
theorem keyOther (code : KeyCode) : Statement (.keyOther code) := fun _ =>
  ⟨⟨"KEY.OTHER", 0x6000#16, 0xFF00#16⟩, by simp [opcodeRows], rfl, keyWord_matches_other code⟩
theorem reset : Statement .reset := fun _ =>
  ⟨⟨"RESET", 0x7000#16, 0xFFFF#16⟩, by simp [opcodeRows], rfl, by decide⟩

end Sys2Proof.Laws.EncodedInRow
end

