-- ==== Sys2Proof/Laws/State.lean ====
section
/-!
SUPPORT. One lemma per field per update, true by rfl: for the updates of the units (Ops.lean) and of the whole state.
-/

namespace Sys2Proof.Machine

section queue
variable (p : Params) (e : KeyEvent) (q : QueueUnit)

@[simp] theorem qPush_qslot : (qPush p e q).qslot = q.qslot.set q.qin e.slot := rfl
@[simp] theorem qPush_qin : (qPush p e q).qin = (q.qin + 1) % p.qcap := rfl
@[simp] theorem qPush_qout : (qPush p e q).qout = q.qout := rfl

end queue

section speed
variable (u : SpeedUnit)

@[simp] theorem countTick_elapsed : (countTick u).elapsed = sat32 (u.elapsed.toNat + 1) := rfl
@[simp] theorem countTick_spState : (countTick u).spState = u.spState := rfl
@[simp] theorem countTick_rpm : (countTick u).rpm = u.rpm := rfl
@[simp] theorem countTick_rpmHist : (countTick u).rpmHist = u.rpmHist := rfl
@[simp] theorem countTick_rpmIdx : (countTick u).rpmIdx = u.rpmIdx := rfl

end speed

section entry
variable (u : EntryUnit) (d : BitVec 4)

@[simp] theorem writeDigit_digBuf : (writeDigit d u).digBuf = u.digBuf.setIfInBounds u.curCol.toNat d := rfl
@[simp] theorem writeDigit_digitEntered : (writeDigit d u).digitEntered = true := rfl
@[simp] theorem writeDigit_curRow : (writeDigit d u).curRow = u.curRow := rfl
@[simp] theorem writeDigit_curCol : (writeDigit d u).curCol = u.curCol := rfl

@[simp] theorem rowUp_curRow : (rowUp u).curRow = BitVec.ofNat 2 (u.curRow.toNat - 1) := rfl
@[simp] theorem rowUp_curCol : (rowUp u).curCol = u.curCol := rfl
@[simp] theorem rowUp_digBuf : (rowUp u).digBuf = u.digBuf := rfl
@[simp] theorem rowUp_digitEntered : (rowUp u).digitEntered = u.digitEntered := rfl

@[simp] theorem rowDown_curRow : (rowDown u).curRow = BitVec.ofNat 2 (min (u.curRow.toNat + 1) 2) := rfl
@[simp] theorem rowDown_curCol : (rowDown u).curCol = u.curCol := rfl
@[simp] theorem rowDown_digBuf : (rowDown u).digBuf = u.digBuf := rfl
@[simp] theorem rowDown_digitEntered : (rowDown u).digitEntered = u.digitEntered := rfl

@[simp] theorem columnLeft_curCol : (columnLeft u).curCol = BitVec.ofNat 3 (u.curCol.toNat - 1) := rfl
@[simp] theorem columnLeft_curRow : (columnLeft u).curRow = u.curRow := rfl
@[simp] theorem columnLeft_digBuf : (columnLeft u).digBuf = u.digBuf := rfl
@[simp] theorem columnLeft_digitEntered : (columnLeft u).digitEntered = u.digitEntered := rfl

@[simp] theorem columnRight_curCol : (columnRight u).curCol = BitVec.ofNat 3 (min (u.curCol.toNat + 1) 4) := rfl
@[simp] theorem columnRight_curRow : (columnRight u).curRow = u.curRow := rfl
@[simp] theorem columnRight_digBuf : (columnRight u).digBuf = u.digBuf := rfl
@[simp] theorem columnRight_digitEntered : (columnRight u).digitEntered = u.digitEntered := rfl

@[simp] theorem entryAfterCommit_curRow :
    (entryAfterCommit u).curRow = BitVec.ofNat 2 ((u.curRow.toNat + 1) % 3) := rfl
@[simp] theorem entryAfterCommit_curCol : (entryAfterCommit u).curCol = 0#3 := rfl
@[simp] theorem entryAfterCommit_digBuf : (entryAfterCommit u).digBuf = Vector.replicate 5 0#4 := rfl
@[simp] theorem entryAfterCommit_digitEntered : (entryAfterCommit u).digitEntered = false := rfl

end entry

section whole
variable (s : State)

@[simp] theorem resetRegisters_cfg : (resetRegisters s).cfg = s.cfg := rfl
@[simp] theorem resetRegisters_scan :
    (resetRegisters s).scan = { hist := Vector.replicate 16 0x00#8, scanCol := 0#2 } := rfl
@[simp] theorem resetRegisters_queue :
    (resetRegisters s).queue = { qslot := List.replicate s.cfg.qcap 0#10, qin := 0, qout := 0 } := rfl
@[simp] theorem resetRegisters_speed :
    (resetRegisters s).speed =
      { spState := .below, elapsed := 0#32, rpm := 0#32,
        rpmHist := List.replicate s.cfg.boxcarSlots 0#32, rpmIdx := 0 } := rfl
@[simp] theorem resetRegisters_entry :
    (resetRegisters s).entry =
      { curRow := 0#2, curCol := 0#3, digBuf := Vector.replicate 5 0#4, digitEntered := false } := rfl
@[simp] theorem resetRegisters_setpoints :
    (resetRegisters s).setpoints = { spVolt := 0#17, spSpeed := 0#17, spMax := 0#17 } := rfl
@[simp] theorem resetRegisters_latch :
    (resetRegisters s).latch = { running := false, pwmEnabled := false, vth := false } := rfl
@[simp] theorem resetRegisters_output :
    (resetRegisters s).output = { dutyHB := 0#14, dutyBoost := 0#14, dutyBuck := 0#14, pwmOutEn := false } := rfl
@[simp] theorem resetRegisters_lost : (resetRegisters s).lost = s.lost := rfl
@[simp] theorem resetRegisters_refused : (resetRegisters s).refused = s.refused := rfl
@[simp] theorem resetRegisters_popResult : (resetRegisters s).popResult = s.popResult := rfl
@[simp] theorem resetRegisters_consumer : (resetRegisters s).consumer = s.consumer := rfl
@[simp] theorem resetRegisters_inbox : (resetRegisters s).inbox = s.inbox := rfl
@[simp] theorem resetRegisters_envTime : (resetRegisters s).envTime = s.envTime := rfl

@[simp] theorem markRefused_cfg : (markRefused s).cfg = s.cfg := rfl
@[simp] theorem markRefused_scan : (markRefused s).scan = s.scan := rfl
@[simp] theorem markRefused_queue : (markRefused s).queue = s.queue := rfl
@[simp] theorem markRefused_speed : (markRefused s).speed = s.speed := rfl
@[simp] theorem markRefused_entry : (markRefused s).entry = s.entry := rfl
@[simp] theorem markRefused_setpoints : (markRefused s).setpoints = s.setpoints := rfl
@[simp] theorem markRefused_latch : (markRefused s).latch = s.latch := rfl
@[simp] theorem markRefused_output : (markRefused s).output = s.output := rfl
@[simp] theorem markRefused_lost : (markRefused s).lost = s.lost := rfl
@[simp] theorem markRefused_refused : (markRefused s).refused = true := rfl
@[simp] theorem markRefused_popResult : (markRefused s).popResult = s.popResult := rfl
@[simp] theorem markRefused_consumer : (markRefused s).consumer = s.consumer := rfl
@[simp] theorem markRefused_inbox : (markRefused s).inbox = s.inbox := rfl
@[simp] theorem markRefused_envTime : (markRefused s).envTime = s.envTime := rfl

@[simp] theorem State.withFetchWord_nextIssue (nbits w : Nat) :
    (s.withFetchWord nbits w).nextIssue = .port (BitVec.ofNat 16 (w % 2 ^ nbits)) := rfl
@[simp] theorem State.withFetchWord_takeIssue (nbits w : Nat) : (s.withFetchWord nbits w).takeIssue = s := rfl
@[simp] theorem State.withFetchWord_cfg (nbits w : Nat) : (s.withFetchWord nbits w).cfg = s.cfg := rfl

end whole

/-- RESET leaves the state power-on gives under the run's parameters, the model-only counters and the model's own
fields apart (70_reset R260: "Power-on is a RESET"). -/
theorem resetRegisters_eq_initial (s : State) :
    resetRegisters s =
      { State.initial s.cfg with
        lost := s.lost, refused := s.refused, popResult := s.popResult, consumer := s.consumer,
        inbox := s.inbox, envTime := s.envTime } := rfl

end Sys2Proof.Machine
end

