-- ==== Sys2Proof/Laws/Whole.lean ====
section
/-!
SUPPORT. The operations over the whole state: what each can do, said once, and what each leaves alone.
-/

namespace Sys2Proof.Machine

/-- Everything `Enqueue` can do (41_event_queue R134): push into a slot that is free, or, when the slot at `qin` is
taken, count a lost event and drop or overwrite. -/
theorem enqueue_cases (e : KeyEvent) (s : State) :
    (fullAtIn s.queue = false ∧ enqueue e s = { s with queue := qPush s.cfg e s.queue }) ∨
    (fullAtIn s.queue = true ∧ s.cfg.enqFullPolicy = .drop ∧ enqueue e s = { s with lost := s.lost + 1 }) ∨
    (fullAtIn s.queue = true ∧ s.cfg.enqFullPolicy = .overwrite ∧
      enqueue e s = { s with lost := s.lost + 1, queue := qPush s.cfg e s.queue }) := by
  unfold enqueue
  cases fullAtIn s.queue <;> cases s.cfg.enqFullPolicy <;> simp

/-- `Enqueue` writes the queue and `lost` only. -/
theorem enqueue_frame (e : KeyEvent) (s : State) :
    enqueue e s = { s with queue := (enqueue e s).queue, lost := (enqueue e s).lost } := by
  rcases enqueue_cases e s with ⟨-, h⟩ | ⟨-, -, h⟩ | ⟨-, -, h⟩ <;> rw [h]

section enqueue
variable (e : KeyEvent) (s : State)

@[simp] theorem enqueue_cfg : (enqueue e s).cfg = s.cfg := by rw [enqueue_frame]
@[simp] theorem enqueue_scan : (enqueue e s).scan = s.scan := by rw [enqueue_frame]
@[simp] theorem enqueue_speed : (enqueue e s).speed = s.speed := by rw [enqueue_frame]
@[simp] theorem enqueue_entry : (enqueue e s).entry = s.entry := by rw [enqueue_frame]
@[simp] theorem enqueue_setpoints : (enqueue e s).setpoints = s.setpoints := by rw [enqueue_frame]
@[simp] theorem enqueue_latch : (enqueue e s).latch = s.latch := by rw [enqueue_frame]
@[simp] theorem enqueue_output : (enqueue e s).output = s.output := by rw [enqueue_frame]
@[simp] theorem enqueue_refused : (enqueue e s).refused = s.refused := by rw [enqueue_frame]
@[simp] theorem enqueue_popResult : (enqueue e s).popResult = s.popResult := by rw [enqueue_frame]
@[simp] theorem enqueue_consumer : (enqueue e s).consumer = s.consumer := by rw [enqueue_frame]
@[simp] theorem enqueue_inbox : (enqueue e s).inbox = s.inbox := by rw [enqueue_frame]
@[simp] theorem enqueue_envTime : (enqueue e s).envTime = s.envTime := by rw [enqueue_frame]

/-- `Enqueue` is the producer: it leaves the output index alone (10_state R26). -/
@[simp] theorem enqueue_qout : (enqueue e s).queue.qout = s.queue.qout := by
  rcases enqueue_cases e s with ⟨-, h⟩ | ⟨-, -, h⟩ | ⟨-, -, h⟩ <;> rw [h] <;> rfl

end enqueue

/-- One observation writes the history of its key, then enqueues the event the new value makes, if any
(40_debounce_scan R101). -/
theorem observeKey_cases (rows : BitVec 4) (c : BitVec 2) (s : State) (r : Fin 4) :
    (patternEvent ((shiftKey rows c s.scan r).hist.get (keyIndex c r)) = none ∧
      observeKey rows c s r = { s with scan := shiftKey rows c s.scan r }) ∨
    ∃ kind, patternEvent ((shiftKey rows c s.scan r).hist.get (keyIndex c r)) = some kind ∧
      observeKey rows c s r =
        enqueue { kind := kind, key := keyAt s.cfg c r } { s with scan := shiftKey rows c s.scan r } := by
  unfold observeKey
  cases hp : patternEvent ((shiftKey rows c s.scan r).hist.get (keyIndex c r)) with
  | none => exact .inl ⟨rfl, by simp [hp]⟩
  | some kind => exact .inr ⟨kind, rfl, by simp [hp]⟩

/-- One observation changes the scan unit only at the history of its key (40_debounce_scan R102). -/
@[simp] theorem observeKey_scan (rows : BitVec 4) (c : BitVec 2) (s : State) (r : Fin 4) :
    (observeKey rows c s r).scan = shiftKey rows c s.scan r := by
  rcases observeKey_cases rows c s r with ⟨-, h⟩ | ⟨kind, -, h⟩ <;> rw [h]
  exact enqueue_scan _ _

/-- One observation writes the scan unit, the queue and `lost` only. -/
theorem observeKey_frame (rows : BitVec 4) (c : BitVec 2) (s : State) (r : Fin 4) :
    observeKey rows c s r =
      { s with
        scan := (observeKey rows c s r).scan, queue := (observeKey rows c s r).queue
        lost := (observeKey rows c s r).lost } := by
  rcases observeKey_cases rows c s r with ⟨-, h⟩ | ⟨kind, -, h⟩
  · rw [h]
  · rw [h, enqueue_frame]

section observeKey
variable (rows : BitVec 4) (c : BitVec 2) (s : State) (r : Fin 4)

@[simp] theorem observeKey_cfg : (observeKey rows c s r).cfg = s.cfg := by rw [observeKey_frame]
@[simp] theorem observeKey_speed : (observeKey rows c s r).speed = s.speed := by rw [observeKey_frame]
@[simp] theorem observeKey_entry : (observeKey rows c s r).entry = s.entry := by rw [observeKey_frame]
@[simp] theorem observeKey_setpoints : (observeKey rows c s r).setpoints = s.setpoints := by rw [observeKey_frame]
@[simp] theorem observeKey_latch : (observeKey rows c s r).latch = s.latch := by rw [observeKey_frame]
@[simp] theorem observeKey_output : (observeKey rows c s r).output = s.output := by rw [observeKey_frame]
@[simp] theorem observeKey_refused : (observeKey rows c s r).refused = s.refused := by rw [observeKey_frame]
@[simp] theorem observeKey_popResult : (observeKey rows c s r).popResult = s.popResult := by rw [observeKey_frame]
@[simp] theorem observeKey_consumer : (observeKey rows c s r).consumer = s.consumer := by rw [observeKey_frame]
@[simp] theorem observeKey_inbox : (observeKey rows c s r).inbox = s.inbox := by rw [observeKey_frame]
@[simp] theorem observeKey_envTime : (observeKey rows c s r).envTime = s.envTime := by rw [observeKey_frame]

/-- An observation leaves the output index alone (10_state R26). -/
@[simp] theorem observeKey_qout : (observeKey rows c s r).queue.qout = s.queue.qout := by
  rcases observeKey_cases rows c s r with ⟨-, h⟩ | ⟨_, -, h⟩ <;> rw [h]
  exact enqueue_qout _ _

end observeKey

/-- The four observations of a SCAN_TICK, one after another (40_debounce_scan R107). -/
theorem observeColumn_eq (rows : BitVec 4) (c : BitVec 2) (s : State) :
    observeColumn rows c s =
      observeKey rows c (observeKey rows c (observeKey rows c (observeKey rows c s 0) 1) 2) 3 := by
  simp only [observeColumn, List.foldl_cons, List.foldl_nil]

/-- The four histories of the column shift, and no other (40_debounce_scan R102). -/
@[simp] theorem observeColumn_scan (rows : BitVec 4) (c : BitVec 2) (s : State) :
    (observeColumn rows c s).scan =
      shiftKey rows c (shiftKey rows c (shiftKey rows c (shiftKey rows c s.scan 0) 1) 2) 3 := by
  simp [observeColumn_eq]

/-- The observations leave the driven column alone. -/
theorem observeColumn_scanCol (rows : BitVec 4) (c : BitVec 2) (s : State) :
    (observeColumn rows c s).scan.scanCol = s.scan.scanCol := by simp [shiftKey]

section observeColumn
variable (rows : BitVec 4) (c : BitVec 2) (s : State)

@[simp] theorem observeColumn_cfg : (observeColumn rows c s).cfg = s.cfg := by simp [observeColumn_eq]
@[simp] theorem observeColumn_speed : (observeColumn rows c s).speed = s.speed := by simp [observeColumn_eq]
@[simp] theorem observeColumn_entry : (observeColumn rows c s).entry = s.entry := by simp [observeColumn_eq]
@[simp] theorem observeColumn_setpoints : (observeColumn rows c s).setpoints = s.setpoints := by simp [observeColumn_eq]
@[simp] theorem observeColumn_latch : (observeColumn rows c s).latch = s.latch := by simp [observeColumn_eq]
@[simp] theorem observeColumn_output : (observeColumn rows c s).output = s.output := by simp [observeColumn_eq]
@[simp] theorem observeColumn_refused : (observeColumn rows c s).refused = s.refused := by simp [observeColumn_eq]
@[simp] theorem observeColumn_popResult : (observeColumn rows c s).popResult = s.popResult := by simp [observeColumn_eq]
@[simp] theorem observeColumn_consumer : (observeColumn rows c s).consumer = s.consumer := by simp [observeColumn_eq]
@[simp] theorem observeColumn_inbox : (observeColumn rows c s).inbox = s.inbox := by simp [observeColumn_eq]
@[simp] theorem observeColumn_envTime : (observeColumn rows c s).envTime = s.envTime := by simp [observeColumn_eq]
@[simp] theorem observeColumn_qout : (observeColumn rows c s).queue.qout = s.queue.qout := by simp [observeColumn_eq]

end observeColumn

/-- Taking an issue moves only the model's own schedule. -/
theorem takeIssue_frame (s : State) :
    s.takeIssue = { s with inbox := s.takeIssue.inbox, envTime := s.takeIssue.envTime } := by
  unfold State.takeIssue
  split <;> rfl

section takeIssue
variable (s : State)

@[simp] theorem takeIssue_cfg : (s.takeIssue).cfg = s.cfg := by rw [takeIssue_frame]
@[simp] theorem takeIssue_scan : (s.takeIssue).scan = s.scan := by rw [takeIssue_frame]
@[simp] theorem takeIssue_queue : (s.takeIssue).queue = s.queue := by rw [takeIssue_frame]
@[simp] theorem takeIssue_speed : (s.takeIssue).speed = s.speed := by rw [takeIssue_frame]
@[simp] theorem takeIssue_entry : (s.takeIssue).entry = s.entry := by rw [takeIssue_frame]
@[simp] theorem takeIssue_setpoints : (s.takeIssue).setpoints = s.setpoints := by rw [takeIssue_frame]
@[simp] theorem takeIssue_latch : (s.takeIssue).latch = s.latch := by rw [takeIssue_frame]
@[simp] theorem takeIssue_output : (s.takeIssue).output = s.output := by rw [takeIssue_frame]
@[simp] theorem takeIssue_lost : (s.takeIssue).lost = s.lost := by rw [takeIssue_frame]
@[simp] theorem takeIssue_refused : (s.takeIssue).refused = s.refused := by rw [takeIssue_frame]
@[simp] theorem takeIssue_popResult : (s.takeIssue).popResult = s.popResult := by rw [takeIssue_frame]
@[simp] theorem takeIssue_consumer : (s.takeIssue).consumer = s.consumer := by rw [takeIssue_frame]

end takeIssue

/-- Only the consumer agent keeps anything of its operation (00_scope R9). -/
theorem settleIssue_frame (iss : Issue) (s : State) :
    settleIssue iss s = { s with consumer := (settleIssue iss s).consumer } := by
  cases iss <;> rfl

section settleIssue
variable (iss : Issue) (s : State)

@[simp] theorem settleIssue_cfg : (settleIssue iss s).cfg = s.cfg := by rw [settleIssue_frame]
@[simp] theorem settleIssue_scan : (settleIssue iss s).scan = s.scan := by rw [settleIssue_frame]
@[simp] theorem settleIssue_queue : (settleIssue iss s).queue = s.queue := by rw [settleIssue_frame]
@[simp] theorem settleIssue_speed : (settleIssue iss s).speed = s.speed := by rw [settleIssue_frame]
@[simp] theorem settleIssue_entry : (settleIssue iss s).entry = s.entry := by rw [settleIssue_frame]
@[simp] theorem settleIssue_setpoints : (settleIssue iss s).setpoints = s.setpoints := by rw [settleIssue_frame]
@[simp] theorem settleIssue_latch : (settleIssue iss s).latch = s.latch := by rw [settleIssue_frame]
@[simp] theorem settleIssue_output : (settleIssue iss s).output = s.output := by rw [settleIssue_frame]
@[simp] theorem settleIssue_lost : (settleIssue iss s).lost = s.lost := by rw [settleIssue_frame]
@[simp] theorem settleIssue_refused : (settleIssue iss s).refused = s.refused := by rw [settleIssue_frame]
@[simp] theorem settleIssue_popResult : (settleIssue iss s).popResult = s.popResult := by rw [settleIssue_frame]
@[simp] theorem settleIssue_inbox : (settleIssue iss s).inbox = s.inbox := by rw [settleIssue_frame]
@[simp] theorem settleIssue_envTime : (settleIssue iss s).envTime = s.envTime := by rw [settleIssue_frame]

end settleIssue

end Sys2Proof.Machine
end

