-- ==== Sys2Proof/Laws/Step.lean ====
section
/-!
SUPPORT. What one step can do, said once.
-/

namespace Sys2Proof.Machine

/-- Every next state of a step is one of two: the word spells no operation and is marked refused, or it spells one
and the step is that operation (20_memory R67, 30_encoding R89); in both the issue is taken and settled. -/
theorem step_cases (s t : State) (h : step s = .next t) :
    (∃ why, decode s.cfg.arrowMap s.presentedWord = .error why ∧
      t = settleIssue s.nextIssue (markRefused s.takeIssue)) ∨
    ∃ i u, decode s.cfg.arrowMap s.presentedWord = .ok i ∧ exec i s.takeIssue = .next u ∧
      t = settleIssue s.nextIssue u := by
  unfold step at h
  cases hd : decode s.cfg.arrowMap s.presentedWord with
  | error why =>
    simp only [hd, Host.Outcome.next.injEq] at h
    exact .inl ⟨why, rfl, h.symm⟩
  | ok i =>
    simp only [hd] at h
    cases he : exec i s.takeIssue with
    | next u =>
      simp only [he, Host.Outcome.next.injEq] at h
      exact .inr ⟨i, u, rfl, he, h.symm⟩
    | fault f => nomatch f
    | refused r => simp [he] at h

/-- Everything the consumer's move can be (00_scope R9). -/
theorem consumerNext_cases (c : Consumer) (result : Word) :
    ((∃ code, c = .dispatching code) ∧ consumerNext c result = .polling) ∨
    (c = .polling ∧ (resultPresent result && resultIsPress result) = true ∧
      consumerNext c result = .dispatching (resultKey result)) ∨
    (c = .polling ∧ (resultPresent result && resultIsPress result) = false ∧ consumerNext c result = .polling) := by
  cases c with
  | dispatching code => simp [consumerNext]
  | polling => cases h : (resultPresent result && resultIsPress result) <;> simp [consumerNext, h]

end Sys2Proof.Machine
end

