-- ==== Sys2Proof/Laws/Units.lean ====
section
/-!
SUPPORT. The operations over one unit and the arithmetic of the rules: what each can do, said once.
-/

namespace Sys2Proof.Machine

/-! ### Arithmetic (00_scope R12, R16) -/

@[simp] theorem rhu_zero (b : Nat) : rhu 0 b = 0 := by
  unfold rhu
  rcases Nat.eq_zero_or_pos b with h | h
  · simp [h]
  · exact Nat.div_eq_of_lt (by omega)

/-- `rhu(k*b, b) = k` for a positive divisor. -/
theorem rhu_mul (k b : Nat) (h : 0 < b) : rhu (k * b) b = k := by
  unfold rhu
  rw [show 2 * (k * b) + b = b + k * (2 * b) by ring, Nat.add_mul_div_right _ _ (by omega),
    Nat.div_eq_of_lt (by omega), Nat.zero_add]

/-- Rounding does not pass a whole bound: if a ≤ k*b then rhu(a, b) ≤ k. -/
theorem rhu_le (a b k : Nat) (h : a ≤ k * b) : rhu a b ≤ k := by
  rcases Nat.eq_zero_or_pos b with hb | hb
  · subst hb; simp [rhu]
  · calc rhu a b ≤ rhu (k * b) b := Nat.div_le_div_right (by omega)
      _ = k := rhu_mul k b hb

/-- `rhu` is a/b rounded to nearest, halves up (00_scope R12): within half a unit below and, strictly, above. -/
theorem rhu_nearest (a b : Nat) (h : 0 < b) :
    2 * b * rhu a b ≤ 2 * a + b ∧ 2 * a + b < 2 * b * (rhu a b + 1) := by
  unfold rhu
  exact ⟨Nat.mul_div_le _ _, Nat.lt_mul_div_succ _ (by omega)⟩

@[simp] theorem sat32_toNat (v : Nat) : (sat32 v).toNat = min v (2 ^ 32 - 1) := by
  unfold sat32
  rw [BitVec.toNat_ofNat]
  exact Nat.mod_eq_of_lt (by omega)

/-! ### Histories (40_debounce_scan R101 to R105) -/

theorem shiftHistory_toNat (h : BitVec 8) (b : Bool) :
    (shiftHistory h b).toNat = (h.toNat * 2 + b.toNat) % 256 := by
  unfold shiftHistory
  rw [BitVec.toNat_ofNat]
  exact Nat.mod_mod_of_dvd _ (dvd_refl _)

theorem patternEvent_eq_press (h : BitVec 8) : patternEvent h = some .press ↔ h = 0x01#8 := by
  unfold patternEvent Config.pressPat
  split
  · simp_all
  · split <;> simp_all

theorem patternEvent_eq_release (h : BitVec 8) : patternEvent h = some .release ↔ h = 0xFE#8 := by
  unfold patternEvent Config.pressPat Config.releasePat
  split
  · simp_all
  · split <;> simp_all

/-- The shifted key's history is its old one with the sample in bit 0 (40_debounce_scan R102). -/
@[simp] theorem shiftKey_get_self (rows : BitVec 4) (c : BitVec 2) (u : ScanUnit) (r : Fin 4) :
    (shiftKey rows c u r).hist.get (keyIndex c r) =
      shiftHistory (u.hist.get (keyIndex c r)) (rowSample rows r) := by
  simp [shiftKey, Vector.get_eq_getElem]

/-- Every other history is unchanged (40_debounce_scan R102). -/
theorem shiftKey_get_other (rows : BitVec 4) (c : BitVec 2) (u : ScanUnit) (r : Fin 4) (k : Fin 16)
    (h : k ≠ keyIndex c r) : (shiftKey rows c u r).hist.get k = u.hist.get k := by
  simp only [shiftKey, Vector.get_eq_getElem]
  exact Vector.getElem_set_ne _ _ (fun h' => h (Fin.ext h'.symm))

/-- The next column is the driven one plus one, modulo 4 (40_debounce_scan R108). -/
theorem nextColumn_eq (c : BitVec 2) : nextColumn c = c + 1#2 := by revert c; decide

@[simp] theorem shiftKey_scanCol (rows : BitVec 4) (c : BitVec 2) (u : ScanUnit) (r : Fin 4) :
    (shiftKey rows c u r).scanCol = u.scanCol := rfl

/-- Distinct keys have distinct indices (10_state R22). -/
theorem keyIndex_inj (c c' : BitVec 2) (r r' : Fin 4) (h : keyIndex c r = keyIndex c' r') : c = c' ∧ r = r' := by
  have hv := congrArg Fin.val h
  simp only [keyIndex] at hv
  have := r.isLt
  have := r'.isLt
  exact ⟨BitVec.eq_of_toNat_eq (by omega), Fin.ext (by omega)⟩

/-! ### Slots (10_state R25, 30_encoding R88) -/

@[simp] theorem slotValid_slot (e : KeyEvent) : slotValid e.slot = true := by
  unfold slotValid KeyEvent.slot
  rw [BitVec.getLsbD_append, BitVec.getLsbD_append]
  rfl

@[simp] theorem slotValid_zero : slotValid 0#10 = false := by decide

@[simp] theorem slotResult_zero : slotResult 0#10 = 0x0000#16 := by decide

/-- `present` of a result is `valid` of the slot. -/
@[simp] theorem resultPresent_slotResult (v : Slot) : resultPresent (slotResult v) = slotValid v := by
  unfold resultPresent slotResult slotValid
  simp

/-- The key of the result of an event's slot is the event's key. -/
@[simp] theorem resultKey_slot (e : KeyEvent) : resultKey (slotResult e.slot) = e.key := by
  apply BitVec.eq_of_getLsbD_eq
  intro i hi
  unfold resultKey slotResult KeyEvent.slot
  rw [BitVec.getLsbD_extractLsb', BitVec.getLsbD_setWidth, BitVec.getLsbD_append]
  simp [hi, show i < 16 by omega]

/-! ### The queue (41_event_queue R132, R133) -/

/-- Everything `QPop()` can do: nothing on an empty slot, or clear the slot at `qout` and advance. -/
theorem qPop_cases (p : Params) (q : QueueUnit) :
    (emptyAtOut q = true ∧ qPop p q = q ∧ qPopResult q = 0x0000#16) ∨
    (emptyAtOut q = false ∧
      qPop p q = { q with qslot := q.qslot.set q.qout 0#10, qout := (q.qout + 1) % p.qcap } ∧
      qPopResult q = slotResult (slotAt q q.qout)) := by
  unfold qPop qPopResult
  cases emptyAtOut q <;> simp

@[simp] theorem qPop_qin (p : Params) (q : QueueUnit) : (qPop p q).qin = q.qin := by
  rcases qPop_cases p q with ⟨-, h, -⟩ | ⟨-, h, -⟩ <;> rw [h]

/-- Reading a slot after a write of a slot in range. -/
theorem slotAt_set (q : QueueUnit) (i j : Nat) (v : Slot) (h : i < q.qslot.length) :
    slotAt { q with qslot := q.qslot.set i v } j = if i = j then v else slotAt q j := by
  unfold slotAt
  simp only [List.getD_eq_getElem?_getD, List.getElem?_set]
  split <;> simp_all

/-! ### The speed estimator (42_speed_estimator R151 to R158) -/

/-- `elapsed` counts the current tick, so it is at least 1 at every crossing test (42_speed_estimator R158). -/
theorem countTick_elapsed_pos (u : SpeedUnit) : 1 ≤ (countTick u).elapsed.toNat := by
  simp only [countTick_elapsed, sat32_toNat]
  omega

theorem storeBoxcar_one (p : Params) (inst : BitVec 32) (u : SpeedUnit) (h : p.boxcarN = 1) :
    storeBoxcar p inst u = { u with rpm := inst } := by
  simp [storeBoxcar, h]

theorem storeBoxcar_many (p : Params) (inst : BitVec 32) (u : SpeedUnit) (h : p.boxcarN ≠ 1) :
    storeBoxcar p inst u =
      { u with
        rpmHist := u.rpmHist.set u.rpmIdx inst
        rpmIdx := (u.rpmIdx + 1) % p.boxcarN
        rpm := BitVec.ofNat 32 (rhu ((u.rpmHist.set u.rpmIdx inst).map BitVec.toNat).sum p.boxcarN) } := by
  simp [storeBoxcar, h]

/-- Everything the transition step can do: a rising crossing, a falling crossing, or nothing. -/
theorem crossThreshold_cases (p : Params) (raw : BitVec 12) (u : SpeedUnit) :
    (u.spState = .below ∧ aboveThreshold p raw = true ∧
      crossThreshold p raw u =
        { storeBoxcar p (instantRpm p u.elapsed) u with elapsed := 0#32, spState := .above }) ∨
    (u.spState = .above ∧ aboveThreshold p raw = false ∧ crossThreshold p raw u = { u with spState := .below }) ∨
    ((u.spState = .below ↔ aboveThreshold p raw = false) ∧ crossThreshold p raw u = u) := by
  unfold crossThreshold
  cases u.spState <;> cases aboveThreshold p raw <;> simp

/-- Everything the stall step can do. -/
theorem stallTest_cases (p : Params) (u : SpeedUnit) :
    (stalled p u = false ∧ stallTest p u = u) ∨
    (stalled p u = true ∧ 1 < p.boxcarN ∧
      stallTest p u = { u with rpm := 0#32, rpmHist := List.replicate p.boxcarN 0#32, rpmIdx := 0 }) ∨
    (stalled p u = true ∧ ¬ 1 < p.boxcarN ∧ stallTest p u = { u with rpm := 0#32 }) := by
  unfold stallTest
  cases stalled p u
  · simp
  · by_cases h : 1 < p.boxcarN <;> simp [h]

/-- The stall step never changes `elapsed` (42_speed_estimator R156). -/
@[simp] theorem stallTest_elapsed (p : Params) (u : SpeedUnit) : (stallTest p u).elapsed = u.elapsed := by
  rcases stallTest_cases p u with ⟨-, h⟩ | ⟨-, -, h⟩ | ⟨-, -, h⟩ <;> rw [h]

@[simp] theorem stallTest_spState (p : Params) (u : SpeedUnit) : (stallTest p u).spState = u.spState := by
  rcases stallTest_cases p u with ⟨-, h⟩ | ⟨-, -, h⟩ | ⟨-, -, h⟩ <;> rw [h]

/-! ### The latch (44_duty_controller R206) -/

/-- Everything `Toggle()` can do. -/
theorem toggle_cases (u : MotorLatch) :
    ((u.running = true ∨ u.pwmEnabled = true) ∧ toggle u = { u with running := false, pwmEnabled := false }) ∨
    (u.running = false ∧ u.pwmEnabled = false ∧ u.vth = false ∧
      toggle u = { u with running := true, pwmEnabled := true }) ∨
    (u.running = false ∧ u.pwmEnabled = false ∧ u.vth = true ∧ toggle u = u) := by
  rcases u with ⟨_ | _, _ | _, _ | _⟩ <;> simp [toggle]

@[simp] theorem toggle_vth (u : MotorLatch) : (toggle u).vth = u.vth := by
  rcases toggle_cases u with ⟨-, h⟩ | ⟨-, -, -, h⟩ | ⟨-, -, -, h⟩ <;> rw [h]

/-! ### The duty mapper (44_duty_controller R202 to R204) -/

/-- The three cases of the voltage mapping (44_duty_controller R202). -/
theorem voltageMap_cases (p : Params) (v : BitVec 17) :
    (v.toNat ≤ p.battCv ∧ voltageTooHigh p v = false ∧
      buckDuty p v.toNat = rhu (10000 * v.toNat) p.battCv ∧ boostDuty p v.toNat = 0) ∨
    (p.battCv < v.toNat ∧ v.toNat ≤ p.ceilCv ∧ voltageTooHigh p v = false ∧
      buckDuty p v.toNat = 10000 ∧ boostDuty p v.toNat = rhu (10000 * (v.toNat - p.battCv)) v.toNat) ∨
    (p.battCv < v.toNat ∧ p.ceilCv < v.toNat ∧ voltageTooHigh p v = true ∧
      buckDuty p v.toNat = 0 ∧ boostDuty p v.toNat = 0) := by
  unfold voltageTooHigh buckDuty boostDuty Config.dutyFull
  by_cases h1 : v.toNat ≤ p.battCv
  · simp [h1]
  · by_cases h2 : v.toNat ≤ p.ceilCv <;> simp [h1, h2] <;> omega

theorem buckDuty_le (p : Params) (v : Nat) : buckDuty p v ≤ 10000 := by
  unfold buckDuty Config.dutyFull
  split
  · exact rhu_le _ _ _ (by omega)
  · split <;> omega

theorem boostDuty_le (p : Params) (v : Nat) : boostDuty p v ≤ 10000 := by
  unfold boostDuty Config.dutyFull
  split
  · omega
  · split
    · exact rhu_le _ _ _ (by omega)
    · omega

theorem hBridgeDuty_le (vth : Bool) (speed max : Nat) : hBridgeDuty vth speed max ≤ 10000 := by
  unfold hBridgeDuty Config.dutyFull
  split <;> omega

/-- Everything the H-bridge mapping can give (44_duty_controller R203). -/
theorem hBridgeDuty_cases (vth : Bool) (speed max : Nat) :
    ((vth = true ∨ max = 0) ∧ hBridgeDuty vth speed max = 0) ∨
    (vth = false ∧ max ≠ 0 ∧ hBridgeDuty vth speed max = min 10000 (rhu (10000 * speed) max)) := by
  unfold hBridgeDuty Config.dutyFull
  cases vth <;> by_cases h : max = 0 <;> simp [h]

/-- A duty fits its 14-bit register (00_scope R16). -/
theorem duty_fits (n : Nat) (h : n ≤ 10000) : (BitVec.ofNat 14 n).toNat = n := by
  rw [BitVec.toNat_ofNat]
  exact Nat.mod_eq_of_lt (by omega)

/-- Both cases of the output gating (44_duty_controller R204). -/
theorem gateOutputs_cases (en : Bool) (hb boost buck : Nat) :
    (en = true ∧ gateOutputs en hb boost buck =
      { dutyHB := BitVec.ofNat 14 hb, dutyBoost := BitVec.ofNat 14 boost, dutyBuck := BitVec.ofNat 14 buck,
        pwmOutEn := true }) ∨
    (en = false ∧ gateOutputs en hb boost buck =
      { dutyHB := 0#14, dutyBoost := 0#14, dutyBuck := 0#14, pwmOutEn := false }) := by
  cases en <;> simp [gateOutputs]

/-- The output stage is enabled exactly as `pwmEnabled` says (44_duty_controller R204). -/
@[simp] theorem gateOutputs_pwmOutEn (en : Bool) (hb boost buck : Nat) :
    (gateOutputs en hb boost buck).pwmOutEn = en := by
  cases en <;> rfl

/-! ### The entry machine (43_setpoint_entry R176, 44_duty_controller R201) -/

/-- Five decimal digits make at most 99999 (43_setpoint_entry R176). -/
theorem bufferValue_le (b : Vector (BitVec 4) 5) (h : ∀ i : Fin 5, (b.get i).toNat ≤ 9) : bufferValue b ≤ 99999 := by
  have h0 : b[0].toNat ≤ 9 := h 0
  have h1 : b[1].toNat ≤ 9 := h 1
  have h2 : b[2].toNat ≤ 9 := h 2
  have h3 : b[3].toNat ≤ 9 := h 3
  have h4 : b[4].toNat ≤ 9 := h 4
  unfold bufferValue
  omega

/-- A value of at most 99999 fits its 17-bit register (43_setpoint_entry R176). -/
theorem setpoint_fits (n : Nat) (h : n ≤ 99999) : (BitVec.ofNat 17 n).toNat = n := by
  rw [BitVec.toNat_ofNat]
  exact Nat.mod_eq_of_lt (by omega)

/-- Everything a commit can store (43_setpoint_entry R176); the last case is no row of the grid (10_state R52). -/
theorem storeSetpoint_cases (row : BitVec 2) (n : Nat) (u : Setpoints) :
    (row = 0#2 ∧ storeSetpoint row n u = { u with spVolt := BitVec.ofNat 17 n }) ∨
    (row = 1#2 ∧ storeSetpoint row n u = { u with spSpeed := BitVec.ofNat 17 n }) ∨
    (row = 2#2 ∧ storeSetpoint row n u = { u with spMax := BitVec.ofNat 17 n }) ∨
    (row = 3#2 ∧ storeSetpoint row n u = u) := by
  have : row = 0#2 ∨ row = 1#2 ∨ row = 2#2 ∨ row = 3#2 := by revert row; decide
  rcases this with h | h | h | h <;> subst h <;> simp [storeSetpoint]

/-- The slot at the cursor takes the digit, every other slot stays (43_setpoint_entry R171). -/
theorem writeDigit_get (d : BitVec 4) (u : EntryUnit) (i : Fin 5) :
    (writeDigit d u).digBuf.get i = if i.val = u.curCol.toNat then d else u.digBuf.get i := by
  simp only [writeDigit_digBuf, Vector.get_eq_getElem, Vector.getElem_setIfInBounds]
  split <;> split <;> simp_all

/-- A digit key's digit, of either row (43_setpoint_entry R171). -/
theorem lowDigit_toNat (d : BitVec 3) : (lowDigit d).toNat = d.toNat := by revert d; decide
theorem highDigit_toNat (d : BitVec 1) : (highDigit d).toNat = 8 + d.toNat := by revert d; decide

/-- Everything the deferred cursor advance can do (44_duty_controller R201). -/
theorem advanceCursor_cases (u : EntryUnit) :
    (u.digitEntered = true ∧
      advanceCursor u = { u with curCol := BitVec.ofNat 3 (min (u.curCol.toNat + 1) 4), digitEntered := false }) ∨
    (u.digitEntered = false ∧ advanceCursor u = u) := by
  unfold advanceCursor
  cases u.digitEntered <;> simp [columnRight, Config.nDigits]

end Sys2Proof.Machine
end

