-- ==== Sys2Proof/Tests/Slice0.lean ====
section
/-!
SUPPORT. The model's own tests: the smoke test of the well-formedness check, decoding words written out from the spec's
encodings, and single steps. Expected values are those of spec/95_test_vectors.md unless a comment says otherwise.
-/

namespace Sys2Proof.Machine.Tests

/-- What a view of the next state shows; nothing for a stop. -/
def view {α : Type} (f : State → α) : StepOutcome → Option α
  | .next t => some (f t)
  | .fault _ => none
  | .refused _ => none

/-! ### Well-formedness: the one check refuses the code of each kind of symbol (30_encoding R86) -/

theorem test_wf_other_digit_refused : (Instr.keyOther 0x30#8).wellFormed = false := by decide
theorem test_wf_other_arrow_refused : (Instr.keyOther 0x44#8).wellFormed = false := by decide
theorem test_wf_other_commit_refused : (Instr.keyOther 0x23#8).wellFormed = false := by decide
theorem test_wf_other_startstop_refused : (Instr.keyOther 0x2A#8).wellFormed = false := by decide
theorem test_wf_other_code_accepted : (Instr.keyOther 0x45#8).wellFormed = true := by decide

/-! ### Decoding: OPC, operand and must-be-zero bits written out (30_encoding R81, R87) -/

theorem test_decode_scan : decode ArrowMap.default 0b0001_00000000_0110#16 = .ok (.scanTick 0b0110#4) := by decide
theorem test_decode_speed : decode ArrowMap.default 0b0010_1010_0101_0011#16 = .ok (.speedTick 0xA53#12) := by decide
theorem test_decode_control : decode ArrowMap.default 0b0011_0000_0000_0000#16 = .ok .controlTick := by decide
theorem test_decode_edge : decode ArrowMap.default 0b0100_0000_0000_0000#16 = .ok .edge := by decide
theorem test_decode_pop : decode ArrowMap.default 0b0101_0000_0000_0000#16 = .ok .pop := by decide
theorem test_decode_digit_low : decode ArrowMap.default 0b0110_0000_0011_0101#16 = .ok (.keyDigitLow 5#3) := by decide
theorem test_decode_digit_high : decode ArrowMap.default 0b0110_0000_0011_1000#16 = .ok (.keyDigitHigh 0#1) := by decide
theorem test_decode_up : decode ArrowMap.default 0b0110_0000_0100_0001#16 = .ok .keyUp := by decide
theorem test_decode_down : decode ArrowMap.default 0b0110_0000_0100_0010#16 = .ok .keyDown := by decide
theorem test_decode_left : decode ArrowMap.default 0b0110_0000_0100_0011#16 = .ok .keyLeft := by decide
theorem test_decode_right : decode ArrowMap.default 0b0110_0000_0100_0100#16 = .ok .keyRight := by decide
theorem test_decode_commit : decode ArrowMap.default 0b0110_0000_0010_0011#16 = .ok .keyCommit := by decide
theorem test_decode_startstop : decode ArrowMap.default 0b0110_0000_0010_1010#16 = .ok .keyStartstop := by decide
theorem test_decode_other : decode ArrowMap.default 0b0110_0000_1111_1111#16 = .ok (.keyOther 0xFF#8) := by decide
theorem test_decode_reset : decode ArrowMap.default 0b0111_0000_0000_0000#16 = .ok .reset := by decide

/-- The opposite assignment of the vertical pair (30_encoding R85). -/
theorem test_decode_arrow_map : decode { upIsA := false, leftIsC := true } 0x6041#16 = .ok .keyDown := by decide
theorem test_decode_refused_words :
    [0x0000#16, 0x8000#16, 0xF123#16].map (decode ArrowMap.default) =
      [.error .reservedOpcode, .error .reservedOpcode, .error .reservedOpcode] ∧
    [0x7001#16, 0x4800#16, 0x5001#16, 0x1010#16, 0x6100#16, 0x3001#16].map (decode ArrowMap.default) =
      List.replicate 6 (.error .mbzNonzero) := by decide
theorem test_decode_table_word : decodeTableWord 16 0x1002 = some (.scanTick 0b0010#4) := by decide

/-! ### SCAN_TICK (95_test_vectors 2.2) -/

theorem test_scan_fills_queue_and_drops :
    view (fun t => (t.scan.hist.toList.take 5, t.queue, t.lost, t.scan.scanCol)) (exec (.scanTick 0b1111#4) State.reset) =
      some ([1, 1, 1, 1, 0], { qslot := [0x331#10, 0x334#10], qin := 0, qout := 0 }, 2, 1#2) := by decide

theorem test_scan_release_last_column :
    view (fun t => (t.scan.hist.get 15, t.queue.qslot, t.scan.scanCol))
      (exec (.scanTick 0#4)
        { State.reset with scan := { hist := (Vector.replicate 16 0x00#8).set 15 0x7F#8, scanCol := 3#2 } }) =
      some (0xFE#8, [0x244#10, 0#10], 0#2) := by decide

/-! ### POP (95_test_vectors 2.3) -/

theorem test_pop_event :
    view (fun t => (t.popResult, t.queue))
      (exec .pop { State.reset with queue := { qslot := [0x335#10, 0#10], qin := 1, qout := 0 } }) =
      some (0x0335#16, { qslot := [0#10, 0#10], qin := 1, qout := 1 }) := by decide

theorem test_pop_behind_output_index :
    view (fun t => (t.popResult, t.queue))
      (exec .pop { State.reset with queue := { qslot := [0#10, 0x333#10], qin := 0, qout := 0 } }) =
      some (0x0000#16, { qslot := [0#10, 0x333#10], qin := 0, qout := 0 }) := by decide

/-! ### SPEED_TICK (95_test_vectors 2.4) -/

/-- The reset state with these speed registers. -/
def speedState (st : SpState) (elapsed rpm : Nat) : State :=
  { State.reset with speed :=
      { State.reset.speed with spState := st, elapsed := BitVec.ofNat 32 elapsed, rpm := BitVec.ofNat 32 rpm } }

theorem test_speed_measures_not_stalls :
    view (fun t => (t.speed.spState, t.speed.elapsed, t.speed.rpm)) (exec (.speedTick 4095#12) (speedState .below 1000 6000)) =
      some (.above, 0#32, 5994#32) := by decide

theorem test_speed_falling_and_stall :
    view (fun t => (t.speed.spState, t.speed.elapsed, t.speed.rpm)) (exec (.speedTick 0#12) (speedState .above 1000 6000)) =
      some (.below, 1001#32, 0#32) := by decide

/-! ### CONTROL_TICK (95_test_vectors 2.6) -/

/-- The reset state with these setpoints and the latch set. -/
def driveState (volt speed max : Nat) : State :=
  { State.reset with
    setpoints := { spVolt := BitVec.ofNat 17 volt, spSpeed := BitVec.ofNat 17 speed, spMax := BitVec.ofNat 17 max }
    latch := { running := true, pwmEnabled := true, vth := false } }

theorem test_control_boost_and_bridge :
    view (fun t => (t.latch.vth, t.output)) (exec .controlTick (driveState 1250 2 3)) =
      some (false, { dutyHB := 6667#14, dutyBoost := 2800#14, dutyBuck := 10000#14, pwmOutEn := true }) := by decide

theorem test_control_too_high_keeps_stage_enabled :
    view (fun t => (t.latch, t.output)) (exec .controlTick (driveState 2401 1500 3000)) =
      some ({ running := true, pwmEnabled := true, vth := true },
        { dutyHB := 0#14, dutyBoost := 0#14, dutyBuck := 0#14, pwmOutEn := true }) := by decide

/-! ### EDGE and KEY '*' (95_test_vectors 2.5, 2.7) -/

/-- The reset state with this latch. -/
def latchState (running pwmEnabled vth : Bool) : State :=
  { State.reset with latch := { running := running, pwmEnabled := pwmEnabled, vth := vth } }

theorem test_edge_starts :
    view (·.latch) (exec .edge (latchState false false false)) =
      some { running := true, pwmEnabled := true, vth := false } := by decide
theorem test_edge_refused_while_too_high :
    view (·.latch) (exec .edge (latchState false false true)) =
      some { running := false, pwmEnabled := false, vth := true } := by decide
theorem test_startstop_stops_while_too_high :
    view (·.latch) (exec .keyStartstop (latchState true true true)) =
      some { running := false, pwmEnabled := false, vth := true } := by decide

/-! ### KEY (95_test_vectors 2.5) -/

/-- The reset state with this entry unit. -/
def entryState (row : BitVec 2) (col : BitVec 3) (buf : Vector (BitVec 4) 5) (entered : Bool) : State :=
  { State.reset with entry := { curRow := row, curCol := col, digBuf := buf, digitEntered := entered } }

theorem test_digit_low :
    view (·.entry) (exec (.keyDigitLow 7#3) (entryState 0 2 #v[0, 0, 0, 0, 0] false)) =
      some { curRow := 0, curCol := 2, digBuf := #v[0, 0, 7, 0, 0], digitEntered := true } := by decide
theorem test_digit_high :
    view (·.entry) (exec (.keyDigitHigh 1#1) (entryState 0 4 #v[0, 0, 0, 0, 1] false)) =
      some { curRow := 0, curCol := 4, digBuf := #v[0, 0, 0, 0, 9], digitEntered := true } := by decide
theorem test_up : view (·.entry.curRow) (exec .keyUp (entryState 1 0 #v[0, 0, 0, 0, 0] false)) = some 0 := by decide
theorem test_up_clamped : view (·.entry.curRow) (exec .keyUp (entryState 0 0 #v[0, 0, 0, 0, 0] false)) = some 0 := by decide
theorem test_down : view (·.entry.curRow) (exec .keyDown (entryState 0 0 #v[0, 0, 0, 0, 0] false)) = some 1 := by decide
theorem test_down_clamped : view (·.entry.curRow) (exec .keyDown (entryState 2 0 #v[0, 0, 0, 0, 0] false)) = some 2 := by decide
theorem test_left : view (·.entry.curCol) (exec .keyLeft (entryState 0 3 #v[0, 0, 0, 0, 0] false)) = some 2 := by decide
theorem test_left_clamped : view (·.entry.curCol) (exec .keyLeft (entryState 0 0 #v[0, 0, 0, 0, 0] false)) = some 0 := by decide
theorem test_right : view (·.entry.curCol) (exec .keyRight (entryState 0 3 #v[0, 0, 0, 0, 0] false)) = some 4 := by decide
theorem test_right_clamped : view (·.entry.curCol) (exec .keyRight (entryState 0 4 #v[0, 0, 0, 0, 0] false)) = some 4 := by decide
theorem test_commit_max_speed :
    view (fun t => (t.setpoints.spMax, t.entry)) (exec .keyCommit (entryState 2 3 #v[0, 3, 0, 0, 0] true)) =
      some (3000#17, { curRow := 0, curCol := 0, digBuf := #v[0, 0, 0, 0, 0], digitEntered := false }) := by decide
theorem test_commit_voltage :
    view (fun t => (t.setpoints.spVolt, t.entry.curRow)) (exec .keyCommit (entryState 0 0 #v[9, 9, 9, 9, 9] false)) =
      some (99999#17, 1) := by decide
theorem test_other_changes_nothing : exec (.keyOther 0x00#8) State.reset = .next State.reset := by rfl

/-! ### RESET (95_test_vectors 2.8) and a step -/

theorem test_reset_keeps_lost :
    view (fun t => (decide ({ t with lost := 0 } = State.reset), t.lost))
      (exec .reset { driveState 1500 1 2 with lost := 3, queue := { qslot := [0x331#10, 0#10], qin := 1, qout := 0 } }) =
      some (true, 3) := by decide
theorem test_step_refused_word :
    view (fun t => decide (t = { State.reset with refused := true })) (step (State.reset.withFetchWord 16 0xF123)) =
      some true := by decide
theorem test_step_runs_scheduled_word :
    view (fun t => (t.queue.qslot, t.inbox)) (step (State.reset.withFetchWord 16 0x1002)) =
      some ([0x334#10, 0#10], []) := by decide

/-- An operation of the consumer: the Press of '5' it popped is what it dispatches next (00_scope R9). -/
theorem test_consumer_dispatches_press :
    view (fun t => (t.popResult, t.consumer))
      (step { State.reset with inbox := [.consumer], queue := { qslot := [0x335#10, 0#10], qin := 1, qout := 0 } }) =
      some (0x0335#16, .dispatching 0x35#8) := by decide

/-- A Release of '5' is discarded (00_scope R9). -/
theorem test_consumer_discards_release :
    view (fun t => (t.popResult, t.consumer))
      (step { State.reset with inbox := [.consumer], queue := { qslot := [0x235#10, 0#10], qin := 1, qout := 0 } }) =
      some (0x0235#16, .polling) := by decide

/-! ### Text (30_encoding R91, R92; lines of 95_test_vectors Part 3) -/

theorem test_assemble_scan :
    assembleLine ['[', 's', 'c', 'a', 'n', ']', ' ', 's', 'c', 'a', 'n', ' ', '0', 'b', '0', '0', '1', '0', ' ', ';', ' ', 'x'] =
      some { tag := some .scan, item := some (.words [0x1002#16]) } := by decide
theorem test_assemble_range_error : assembleLine ['s', 'c', 'a', 'n', ' ', '1', '6'] = none := by decide

/-! ### The queue under Overwrite (41_event_queue R132, R134) -/

/-- From reset under Overwrite with two slots, four Presses in one SCAN_TICK: by the pseudocode of 41_event_queue R132
and R134, '7' overwrites '1', '*' overwrites '4', and `qin` is back at 0 (log 19). -/
theorem test_two_overwrites_realign :
    let s := { State.reset with cfg := { Params.default with enqFullPolicy := .overwrite } }
    ∃ t, exec (.scanTick 0b1111#4) s = .next t ∧
      t.queue = { qslot := [0x337#10, 0x32A#10], qin := 0, qout := 0 } ∧ t.lost = 2 :=
  ⟨_, rfl, by decide, by decide⟩

end Sys2Proof.Machine.Tests
end

