-- ==== Sys2Proof/Tests/Witnesses.lean ====
section
/-!
SUPPORT. For every statement of Certificates/Slice0/Obligations.lean that has hypotheses, a concrete state and operands
that meet all of them together; for a statement of several clauses, one for each clause at a boundary value.
-/

namespace Sys2Proof.Machine.Tests

/-! ### Encoding -/

theorem witness_DecodeOfEncode_other_boundaries :
    (Instr.keyOther 0x22#8).wellFormed = true ∧ (Instr.keyOther 0x24#8).wellFormed = true ∧
    (Instr.keyOther 0x2F#8).wellFormed = true ∧ (Instr.keyOther 0x3A#8).wellFormed = true ∧
    (Instr.keyOther 0x40#8).wellFormed = true ∧ (Instr.keyOther 0xFF#8).wellFormed = true ∧
    (Instr.speedTick 0xFFF#12).wellFormed = true := by decide

theorem witness_DecodedWordIsItsEncoding :
    decode { upIsA := false, leftIsC := false } 0x6044#16 = .ok .keyLeft ∧
    decode ArrowMap.default 0x2FFF#16 = .ok (.speedTick 0xFFF#12) := by decide

theorem witness_RefusedWords_both_reasons :
    (∃ (s : State) (w : Word) (rest : List Issue) (why : DecodeReject),
      s.inbox = .port w :: rest ∧ decode s.cfg.arrowMap w = .error why ∧ w = 0x7FFF#16) ∧
    ∃ (s : State) (w : Word) (rest : List Issue) (why : DecodeReject),
      s.inbox = .port w :: rest ∧ decode s.cfg.arrowMap w = .error why ∧ w = 0x8000#16 :=
  ⟨⟨{ State.reset with inbox := [.port 0x7FFF#16] }, _, _, .mbzNonzero, rfl, by decide, rfl⟩,
   ⟨{ State.reset with inbox := [.port 0x8000#16] }, _, _, .reservedOpcode, rfl, by decide, rfl⟩⟩

theorem witness_EveryOperandValueIsLegal :
    ((0x6000#16).extractLsb' 12 4 = 0x6#4 ∧ (0x6000#16).extractLsb' 8 4 = 0#4) ∧
    ((0x60FF#16).extractLsb' 12 4 = 0x6#4 ∧ (0x60FF#16).extractLsb' 8 4 = 0#4) ∧
    isSymbolCode 0x00#8 = false ∧ isSymbolCode 0x2F#8 = false ∧ isSymbolCode 0x3A#8 = false ∧
    isSymbolCode 0x40#8 = false ∧ isSymbolCode 0x45#8 = false ∧ isSymbolCode 0xFF#8 = false := by decide

theorem witness_KeySubDecode_each_class :
    (0x30#8).toNat = 0x30 + 0 ∧ (0x37#8).toNat = 0x30 + 7 ∧ (0x38#8).toNat = 0x30 + 8 ∧ (0x39#8).toNat = 0x30 + 9 ∧
    (0x22#8).toNat ≤ 0x22 ∧ 0x24 ≤ (0x24#8).toNat ∧ (0x29#8).toNat ≤ 0x29 ∧ 0x2B ≤ (0x2B#8).toNat ∧
    (0x2F#8).toNat ≤ 0x2F ∧ 0x3A ≤ (0x3A#8).toNat ∧ (0x40#8).toNat ≤ 0x40 ∧ 0x45 ≤ (0x45#8).toNat := by decide

theorem witness_AssembledOperationsDecode :
    (AsmOp.scan 15).word = some 0x100F#16 ∧ (AsmOp.scan 16).word = none ∧ (AsmOp.speed 4095).word = some 0x2FFF#16 ∧
    (AsmOp.speed 4096).word = none ∧ (AsmOp.key 255).word = some 0x60FF#16 ∧ (AsmOp.key 256).word = none := by decide

/-! ### Steps and agents -/

/-- The power-on state with one word at the port. -/
def portState (w : Word) : State := { State.reset with inbox := [.port w] }

/-- The power-on state with the consumer next, an event in the queue, and the consumer where it says. -/
def consumerState (slot : Slot) (c : Consumer) : State :=
  { State.reset with inbox := [.consumer], consumer := c, queue := { qslot := [slot, 0#10], qin := 1, qout := 0 } }

theorem witness_StepRunsTheDecodedInstruction :
    ∃ (s t : State) (i : Instr), decode s.cfg.arrowMap s.presentedWord = .ok i ∧ exec i s.takeIssue = .next t :=
  ⟨portState 0x1002#16, _, .scanTick 0b0010#4, by decide, rfl⟩

theorem witness_ScheduledWordRunsNext :
    ∃ (s t : State) (w : Word) (i : Instr), decode s.cfg.arrowMap w = .ok i ∧ exec i s = .next t :=
  ⟨State.reset, _, 0x2FFF#16, .speedTick 0xFFF#12, by decide, rfl⟩

theorem witness_Consumer_polls_press_and_release :
    (∃ s t : State, s.nextIssue = .consumer ∧ s.consumer = .polling ∧ exec .pop s.takeIssue = .next t ∧
      t.popResult = 0x0335#16) ∧
    (∃ s t : State, s.nextIssue = .consumer ∧ s.consumer = .polling ∧ exec .pop s.takeIssue = .next t ∧
      t.popResult = 0x0235#16) ∧
    ∃ s t : State, s.nextIssue = .consumer ∧ s.consumer = .polling ∧ exec .pop s.takeIssue = .next t ∧
      t.popResult = 0x0000#16 :=
  ⟨⟨consumerState 0x335#10 .polling, _, rfl, rfl, rfl, by decide⟩,
   ⟨consumerState 0x235#10 .polling, _, rfl, rfl, rfl, by decide⟩,
   ⟨consumerState 0x000#10 .polling, _, rfl, rfl, rfl, by decide⟩⟩

theorem witness_Consumer_dispatches :
    ∃ (s t : State) (code : KeyCode), s.nextIssue = .consumer ∧ s.consumer = .dispatching code ∧
      exec (decodeKey s.cfg.arrowMap code) s.takeIssue = .next t :=
  ⟨consumerState 0x000#10 (.dispatching 0x23#8), _, _, rfl, rfl, rfl⟩

theorem witness_Consumer_left_alone_by_others :
    ∃ s t : State, s.nextIssue ≠ .consumer ∧ step s = .next t :=
  ⟨{ State.reset with inbox := [.edge] }, _, by decide, rfl⟩

theorem witness_ParametersAreFixedForARun : ∃ s t : State, step s = .next t :=
  ⟨portState 0x7000#16, _, rfl⟩

/-- A state in which every register differs from its reset value. -/
def busyState : State :=
  { State.reset with
    scan := { hist := Vector.replicate 16 0x7F#8, scanCol := 1#2 }
    queue := { qslot := [0x331#10, 0x334#10], qin := 1, qout := 1 }
    speed := { State.reset.speed with spState := .above, elapsed := 5#32, rpm := 6000#32 }
    entry := { curRow := 1#2, curCol := 2#3, digBuf := #v[1, 2, 3, 4, 5], digitEntered := true }
    setpoints := { spVolt := 3000#17, spSpeed := 1#17, spMax := 2#17 }
    latch := { running := true, pwmEnabled := true, vth := false }
    output := { dutyHB := 5#14, dutyBoost := 6#14, dutyBuck := 7#14, pwmOutEn := true } }

theorem witness_Writers_scan_queue_lost :
    (∃ t, exec (.scanTick 0#4) busyState = .next t ∧ t.scan ≠ busyState.scan ∧ t.lost ≠ busyState.lost) ∧
    (∃ t, exec (.scanTick 0b1111#4) State.reset = .next t ∧ t.queue.qslot ≠ State.reset.queue.qslot) ∧
    (∃ t, exec (.scanTick 0b0001#4) State.reset = .next t ∧ t.queue.qin ≠ State.reset.queue.qin) ∧
    ∃ t, exec .pop busyState = .next t ∧ t.queue.qslot ≠ busyState.queue.qslot ∧
      t.queue.qout ≠ busyState.queue.qout :=
  ⟨⟨_, rfl, by decide, by decide⟩, ⟨_, rfl, by decide⟩, ⟨_, rfl, by decide⟩, ⟨_, rfl, by decide, by decide⟩⟩

theorem witness_Writers_speed_setpoints_latch :
    (∃ t, exec (.speedTick 0#12) busyState = .next t ∧ t.speed ≠ busyState.speed) ∧
    (∃ t, exec .keyCommit busyState = .next t ∧ t.setpoints.spSpeed ≠ busyState.setpoints.spSpeed ∧
      t.entry.digBuf ≠ busyState.entry.digBuf ∧ t.entry.curRow ≠ busyState.entry.curRow) ∧
    ∃ t, exec .edge busyState = .next t ∧ t.latch.running ≠ busyState.latch.running :=
  ⟨⟨_, rfl, by decide⟩, ⟨_, rfl, by decide, by decide, by decide⟩, ⟨_, rfl, by decide⟩⟩

theorem witness_Writers_other_setpoints :
    (∃ s t : State, exec .keyCommit s = .next t ∧ t.setpoints.spVolt ≠ s.setpoints.spVolt) ∧
    ∃ s t : State, exec .keyCommit s = .next t ∧ t.setpoints.spMax ≠ s.setpoints.spMax :=
  ⟨⟨{ busyState with entry := { busyState.entry with curRow := 0#2 } }, _, rfl, by decide⟩,
   ⟨{ busyState with entry := { busyState.entry with curRow := 2#2 } }, _, rfl, by decide⟩⟩

theorem witness_Writers_control_tick :
    ∃ t, exec .controlTick busyState = .next t ∧ t.latch.vth ≠ busyState.latch.vth ∧ t.output ≠ busyState.output ∧
      t.entry.curCol ≠ busyState.entry.curCol ∧ t.entry.digitEntered ≠ busyState.entry.digitEntered :=
  ⟨_, rfl, by decide, by decide, by decide, by decide⟩

/-! ### Debounce and queue -/

theorem witness_EventNeedsSevenSteadyObservations :
    (List.replicate 7 false).length = 7 ∧
    patternEvent (shiftHistory (historyAfter 0xFF#8 ([] ++ List.replicate 7 false)) true) = some .press ∧
    patternEvent (shiftHistory (historyAfter 0x00#8 ([false] ++ List.replicate 7 true)) false) = some .release := by
  decide

theorem witness_ExactlyTheScanColumnIsDriven :
    ∃ (s t : State) (rows : BitVec 4), exec (.scanTick rows) s = .next t ∧ s.scan.scanCol = 3#2 :=
  ⟨{ State.reset with scan := { State.reset.scan with scanCol := 3#2 } }, _, 0#4, rfl, rfl⟩

theorem witness_PopReturnsAndClears :
    (slotAt busyState.queue busyState.queue.qout).getLsbD 9 = true ∧
    (slotAt State.reset.queue State.reset.queue.qout).getLsbD 9 = false := by decide

theorem witness_EnqueueFollowsTheFullPolicy :
    (slotAt State.reset.queue State.reset.queue.qin).getLsbD 9 = false ∧
    ((slotAt busyState.queue busyState.queue.qin).getLsbD 9 = true ∧ busyState.cfg.enqFullPolicy = .drop) ∧
    ∃ s : State, (slotAt s.queue s.queue.qin).getLsbD 9 = true ∧ s.cfg.enqFullPolicy = .overwrite :=
  ⟨by decide, by decide, { busyState with cfg := { busyState.cfg with enqFullPolicy := .overwrite } }, by decide, rfl⟩

/-- The busy state with a POP at the port. -/
def busyPop : State := { busyState with inbox := [.port 0x5000#16] }

theorem witness_QueueAlignmentIsKeptUnderDrop :
    ∃ s t : State, s.cfg.Valid ∧ s.cfg.enqFullPolicy = .drop ∧ s.Shaped ∧ s.QueueAligned ∧ step s = .next t :=
  ⟨busyPop, _, by decide, rfl, by decide, by decide, rfl⟩

theorem witness_AlignedQueue_full_and_empty :
    (busyState.cfg.Valid ∧ busyState.Shaped ∧ busyState.QueueAligned ∧
      (queueContents busyState.cfg busyState.queue).length = busyState.cfg.qcap ∧
      busyState.cfg.enqFullPolicy = .drop ∧
      queueContents busyState.cfg busyState.queue = 0x334#10 :: [0x331#10]) ∧
    State.reset.cfg.Valid ∧ State.reset.Shaped ∧ State.reset.QueueAligned ∧
      (queueContents State.reset.cfg State.reset.queue).length < State.reset.cfg.qcap ∧
      queueContents State.reset.cfg State.reset.queue = [] := by decide

/-- A Press of '1' and a Release of '4'. -/
def twoEvents : List KeyEvent := [{ kind := .press, key := 0x31#8 }, { kind := .release, key := 0x34#8 }]

theorem witness_EventsComeOutInOrder :
    State.reset.cfg.Valid ∧ State.reset.Shaped ∧ State.reset.QueueAligned ∧ validCount State.reset.queue = 0 ∧
    twoEvents.length ≤ State.reset.cfg.qcap ∧ twoEvents[1]? = some { kind := .release, key := 0x34#8 } := by decide

/-- Two slots full of events under Overwrite. -/
def overwriteState : State :=
  { State.reset with
    cfg := { Params.default with enqFullPolicy := .overwrite }
    queue := { qslot := [0x331#10, 0x334#10], qin := 0, qout := 0 } }

theorem witness_OverwriteMisaligns :
    overwriteState.cfg.qcap = 2 ∧ overwriteState.cfg.enqFullPolicy = .overwrite ∧
    overwriteState.queue =
      { qslot := [KeyEvent.slot { kind := .press, key := 0x31#8 }, KeyEvent.slot { kind := .press, key := 0x34#8 }],
        qin := 0, qout := 0 } := by decide

/-- At both ends of the cycle: one overwrite of two, and both. -/
theorem witness_OverwritesRealign :
    overwriteState.cfg.Valid ∧ overwriteState.cfg.enqFullPolicy = .overwrite ∧ overwriteState.Shaped ∧
    overwriteState.QueueAligned ∧ validCount overwriteState.queue = overwriteState.cfg.qcap ∧
    (twoEvents.take 1).length ≤ overwriteState.cfg.qcap ∧ twoEvents.length = overwriteState.cfg.qcap := by decide

/-- The misaligned empty queue of 95_test_vectors Part 2, with a SCAN_TICK at the port that enqueues one event. -/
def misalignedState : State :=
  { overwriteState with
    queue := { qslot := [0#10, 0#10], qin := 1, qout := 0 }
    inbox := [.port 0x1001#16] }

theorem witness_MisalignmentLasts :
    misalignedState.cfg.Valid ∧ misalignedState.Shaped ∧
    misalignedState.queue.qin ≠ (misalignedState.queue.qout + validCount misalignedState.queue) % misalignedState.cfg.qcap ∧
    misalignedState.presentedWord ≠ 0x7000#16 ∧
    ∃ t, step misalignedState = .next t ∧ t.lost = misalignedState.lost ∧ validCount t.queue = 1 :=
  ⟨by decide, by decide, by decide, by decide, _, rfl, rfl, by decide⟩

theorem witness_EventsAreQueuedOrCountedLost :
    ∃ (s t : State) (rows : BitVec 4), s.cfg.Valid ∧ s.cfg.enqFullPolicy = .drop ∧ s.Shaped ∧ s.QueueAligned ∧
      exec (.scanTick rows) s = .next t ∧ (scanEvents s.cfg rows s.scan).length = 4 :=
  ⟨State.reset, _, 0b1111#4, by decide, rfl, by decide, by decide, rfl, by decide⟩

theorem witness_WaitPop_empty_and_not :
    emptyAtOut State.reset.queue = true ∧ emptyAtOut busyState.queue = false := by decide

/-! ### Speed estimator -/

/-- The power-on state with two boxcar registers. -/
def boxcarState (st : SpState) (elapsed : Nat) : State :=
  { State.initial { Params.default with boxcarN := 2 } with
    speed := { spState := st, elapsed := BitVec.ofNat 32 elapsed, rpm := 7#32, rpmHist := [6000#32, 0#32], rpmIdx := 1 } }

theorem witness_SpeedTick_every_case :
    ((boxcarState .below 0).cfg.Valid ∧ (boxcarState .below 0).Shaped ∧ 1 < (boxcarState .below 0).cfg.boxcarN ∧
      (boxcarState .below 0).speed.spState = .below ∧ (boxcarState .below 0).cfg.threshRaw ≤ (1229#12).toNat) ∧
    ((speedState .below 1000 1).cfg.Valid ∧ (speedState .below 1000 1).Shaped ∧
      (speedState .below 1000 1).cfg.boxcarN = 1 ∧ (1228#12).toNat < (speedState .below 1000 1).cfg.threshRaw ∧
      (speedState .below 1000 1).cfg.stallTicks < min ((speedState .below 1000 1).speed.elapsed.toNat + 1) (2 ^ 32 - 1)) ∧
    ((speedState .above 999 1).Shaped ∧ (speedState .above 999 1).speed.spState = .above ∧
      ¬ (speedState .above 999 1).cfg.stallTicks < min ((speedState .above 999 1).speed.elapsed.toNat + 1) (2 ^ 32 - 1)) := by
  decide

/-- A condition on each of two readings, in the form the statements use. -/
theorem both_readings {P : BitVec 12 → Prop} {a b : BitVec 12} (ha : P a) (hb : P b) : ∀ raw ∈ [a, b], P raw := by
  simp [ha, hb]

theorem witness_SteadyHighSignalKeepsRpm :
    (speedState .above 0 6000).speed.spState = .above ∧
    ∀ raw ∈ [1229#12, 4095#12], (speedState .above 0 6000).cfg.threshRaw ≤ raw.toNat :=
  ⟨rfl, both_readings (by decide) (by decide)⟩

theorem witness_SilenceForcesRpmToZero :
    (∀ raw ∈ [1228#12, 0#12], raw.toNat < (speedState .above 999 6000).cfg.threshRaw) ∧ [1228#12, 0#12] ≠ [] ∧
    (speedState .above 999 6000).cfg.stallTicks < 2 ^ 32 - 1 ∧
    (speedState .above 999 6000).cfg.stallTicks < (speedState .above 999 6000).speed.elapsed.toNat + [1228#12, 0#12].length :=
  ⟨both_readings (by decide) (by decide), by decide, by decide, by decide⟩

theorem witness_CrossingIntervalGivesRpm :
    (speedState .above 0 6000).cfg.Valid ∧ (speedState .above 0 6000).cfg.boxcarN = 1 ∧
    (speedState .above 0 6000).speed.spState = .above ∧ (speedState .above 0 6000).speed.elapsed = 0#32 ∧
    (∀ raw ∈ [1229#12, 4095#12], (speedState .above 0 6000).cfg.threshRaw ≤ raw.toNat) ∧
    (∀ raw ∈ [1228#12, 0#12], raw.toNat < (speedState .above 0 6000).cfg.threshRaw) ∧ [1228#12, 0#12] ≠ [] ∧
    (speedState .above 0 6000).cfg.threshRaw ≤ (1229#12).toNat ∧
    [1229#12, 4095#12].length + [1228#12, 0#12].length + 1 < 2 ^ 32 :=
  ⟨by decide, rfl, rfl, rfl, both_readings (by decide) (by decide), both_readings (by decide) (by decide), by decide,
    by decide, by decide⟩

/-! ### Entry, latch and duties -/

theorem witness_DigitKeyWritesTheCursorSlot :
    (entryState 0 4 #v[0, 0, 0, 0, 0] false).entry.curCol.toNat ≤ 4 ∧
    (Instr.keyDigitLow 7#3 = .keyDigitLow 7#3 ∧ 7 = (7#3).toNat) ∧
    (Instr.keyDigitHigh 1#1 = .keyDigitHigh 1#1 ∧ 9 = 8 + (1#1).toNat) := by decide

theorem witness_CommitStoresTheBufferValue_every_row :
    ∀ row ∈ [0#2, 1#2, 2#2],
      (entryState row 4 #v[9, 9, 9, 9, 9] true).entry.curRow.toNat ≤ 2 ∧
      ∀ i : Fin 5, ((entryState row 4 #v[9, 9, 9, 9, 9] true).entry.digBuf.get i).toNat ≤ 9 := by decide

theorem witness_TypedDigitsAreCommitted_every_row :
    ∀ row ∈ [0#2, 1#2, 2#2],
      (entryState row 0 #v[1, 2, 3, 4, 5] false).entry.curCol = 0#3 ∧
      (entryState row 0 #v[1, 2, 3, 4, 5] false).entry.digitEntered = false ∧
      (entryState row 0 #v[1, 2, 3, 4, 5] false).entry.curRow = row := by decide

theorem witness_SecondDigitReplacesTheFirst :
    (entryState 1 4 #v[0, 0, 0, 0, 0] true).entry.curCol.toNat ≤ 4 := by decide

theorem witness_TwoTogglesRestoreTheLatch :
    Instr.edge ∈ [Instr.edge, Instr.keyStartstop] ∧ Instr.keyStartstop ∈ [Instr.edge, Instr.keyStartstop] ∧
    (latchState true true false).latch.running = (latchState true true false).latch.pwmEnabled ∧
    (latchState true true false).latch.vth = false := by decide

theorem witness_LatchIsNeverSetWhileTooHigh :
    (∃ s t : State, step s = .next t ∧ s.latch.pwmEnabled = false ∧ t.latch.pwmEnabled = true ∧
      s.presentedWord = 0x4000#16) ∧
    ∃ s t : State, step s = .next t ∧ s.latch.pwmEnabled = false ∧ t.latch.pwmEnabled = true ∧
      s.presentedWord = 0x602A#16 :=
  ⟨⟨portState 0x4000#16, _, rfl, rfl, rfl, rfl⟩, ⟨portState 0x602A#16, _, rfl, rfl, rfl, rfl⟩⟩

theorem witness_ControlTick_every_case :
    Params.default.Valid ∧
    (driveState 900 1 0).setpoints.spVolt.toNat ≤ (driveState 900 1 0).cfg.battCv ∧
    (driveState 901 1 3).cfg.battCv < (driveState 901 1 3).setpoints.spVolt.toNat ∧
    (driveState 2400 1 3).setpoints.spVolt.toNat ≤ (driveState 2400 1 3).cfg.ceilCv ∧
    (driveState 2401 1 3).cfg.ceilCv < (driveState 2401 1 3).setpoints.spVolt.toNat ∧
    (driveState 900 1 0).setpoints.spMax.toNat = 0 ∧ (driveState 900 1 3).setpoints.spMax.toNat ≠ 0 ∧
    (driveState 900 1 3).latch.pwmEnabled = true ∧ State.reset.latch.pwmEnabled = false := by decide

theorem witness_BoostRunsExactlyAboveTheBattery :
    ∃ s t : State, s.cfg.battCv = 900 ∧ s.cfg.ceilCv = 2400 ∧ exec .controlTick s = .next t ∧
      0 < t.output.dutyBoost.toNat :=
  ⟨driveState 901 1 3, _, rfl, rfl, rfl, by decide⟩

theorem witness_StaleFlagStillDrivesNothing :
    let s := entryState 0 2 #v[0, 2, 4, 0, 1] true
    s.cfg.Valid ∧ s.InRange ∧ Instr.edge ∈ [Instr.edge, Instr.keyStartstop] ∧ s.entry.curRow = 0#2 ∧
    s.latch.pwmEnabled = false ∧ s.latch.vth = false ∧ s.cfg.ceilCv < bufferValue s.entry.digBuf := by decide

theorem witness_StopTakesEffectAtTheNextControlTick :
    Instr.keyStartstop ∈ [Instr.edge, Instr.keyStartstop] ∧ busyState.latch.running = true := by decide

theorem witness_SpeedAndQueueDoNotReachTheDrive :
    ∃ (i : Instr) (s s' t t' : State), s.SameDrive s' ∧ exec i s = .next t ∧ exec i s' = .next t' ∧
      s.speed ≠ s'.speed ∧ s.queue ≠ s'.queue ∧ s.scan ≠ s'.scan :=
  ⟨.controlTick, busyState,
    { busyState with speed := State.reset.speed, queue := State.reset.queue, scan := State.reset.scan }, _, _,
    by decide, rfl, rfl, by decide, by decide, by decide⟩

/-! ### Reset and invariants -/

/-- Parameters at the edges of their ranges. -/
def edgeParams : Params :=
  { Params.default with
    qcap := 1
    enqFullPolicy := .overwrite
    boxcarN := 2
    tps := 715827
    battCv := 1
    ceilCv := 2
    threshRaw := 4095 }

theorem witness_ValidParameters : Params.default.Valid ∧ edgeParams.Valid := by decide

theorem witness_RangesAreKeptByEveryStep : ∃ s t : State, s.InRange ∧ step s = .next t :=
  ⟨busyPop, _, by decide, rfl⟩

theorem witness_ShapeIsKeptByEveryStep :
    ∃ s t : State, s.cfg.Valid ∧ s.Shaped ∧ step s = .next t ∧ 1 < s.cfg.boxcarN :=
  ⟨{ boxcarState .below 5 with inbox := [.port 0x2FFF#16] }, _, by decide, by decide, rfl, by decide⟩

end Sys2Proof.Machine.Tests
end

/-!
The encoding: how the decoder answers each word (30_encoding R80 to R90), and the statements of the family.
-/

namespace Sys2Proof

/-! ### Words as sums and as fields (30_encoding R80, R87) -/

/-- A word written as its high field and its low field is the sum of the two. -/
theorem append_eq_add {n m : Nat} (hi : BitVec n) (lo : BitVec m) :
    hi ++ lo = (hi ++ 0#m) + lo.setWidth (n + m) := by
  apply BitVec.eq_of_toNat_eq
  have hfits : hi.toNat <<< m + lo.toNat < 2 ^ (n + m) := by
    have happ := (hi ++ lo).isLt
    rwa [BitVec.toNat_append, ← Nat.shiftLeft_add_eq_or_of_lt lo.isLt] at happ
  have hlo : lo.toNat < 2 ^ (n + m) := lo.isLt.trans_le (Nat.pow_le_pow_right Nat.two_pos (Nat.le_add_left m n))
  rw [BitVec.toNat_add, BitVec.toNat_append, BitVec.toNat_append, BitVec.toNat_setWidth, Nat.mod_eq_of_lt hlo,
    ← Nat.shiftLeft_add_eq_or_of_lt lo.isLt, BitVec.toNat_ofNat, Nat.zero_mod, Nat.or_zero, Nat.mod_eq_of_lt hfits]

theorem scanWord_eq_add (rows : BitVec 4) : 0x1000#16 + rows.setWidth 16 = 0x100#12 ++ rows :=
  (append_eq_add 0x100#12 rows).symm

theorem speedWord_eq_add (raw : BitVec 12) : 0x2000#16 + raw.setWidth 16 = 0x2#4 ++ raw :=
  (append_eq_add 0x2#4 raw).symm

theorem keyWord_eq_add (code : KeyCode) : 0x6000#16 + code.setWidth 16 = keyWord code :=
  (append_eq_add 0x60#8 code).symm

/-- Seven opcodes have an operation; the reserved ones are the other nine (30_encoding R87, R89). -/
theorem opcode_reserved_iff (opc : BitVec 4) :
    (opc = 0x0#4 ∨ 0x8#4 ≤ opc) ↔ opc ∉ [0x1#4, 0x2#4, 0x3#4, 0x4#4, 0x5#4, 0x6#4, 0x7#4] := by
  revert opc
  decide

/-! ### Accepted and refused words (30_encoding R81, R87, R89) -/

@[simp] theorem requireZero_zero {n : Nat} (i : Instr) : requireZero 0#n i = .ok i := if_pos rfl

theorem requireZero_refused_iff {n : Nat} (mbz : BitVec n) (i : Instr) :
    (∃ why, requireZero mbz i = .error why) ↔ mbz ≠ 0 := by
  unfold requireZero
  split <;> simp_all

/-- A word is refused exactly for its opcode or for the must-be-zero bits of its opcode's format. -/
theorem decode_refused_iff (am : ArrowMap) (w : Word) :
    (∃ why, decode am w = .error why) ↔
      opcField w = 0x0#4 ∨ 0x8#4 ≤ opcField w ∨ (opcField w = 0x1#4 ∧ mbzR w ≠ 0) ∨
      (opcField w = 0x6#4 ∧ mbzK w ≠ 0) ∨ (opcField w ∈ [0x3#4, 0x4#4, 0x5#4, 0x7#4] ∧ mbzN w ≠ 0) := by
  rw [← or_assoc, opcode_reserved_iff]
  unfold decode
  split_ifs with hscan hspeed hcontrol hedge hpop hkey hreset
  · simp [hscan, requireZero_refused_iff]
  · simp [hspeed]
  · simp [hcontrol, requireZero_refused_iff]
  · simp [hedge, requireZero_refused_iff]
  · simp [hpop, requireZero_refused_iff]
  · simp [hkey, requireZero_refused_iff]
  · simp [hreset, requireZero_refused_iff]
  · simp [hscan, hspeed, hcontrol, hedge, hpop, hkey, hreset]

/-- Every word with the KEY opcode and its must-be-zero bits 0 is the KEY of its code (30_encoding R90). -/
theorem decode_of_key (am : ArrowMap) (w : Word) (hopc : opcField w = 0x6#4) (hmbz : mbzK w = 0) :
    decode am w = .ok (decodeKey am (codeField w)) := by
  simp [decode, hopc, hmbz]

@[simp] theorem decode_keyWord (am : ArrowMap) (code : KeyCode) :
    decode am (keyWord code) = .ok (decodeKey am code) := by
  rw [decode_of_key am _ (opcField_keyWord code) (mbzK_keyWord code), codeField_keyWord]

@[simp] theorem decode_scanWord (am : ArrowMap) (rows : BitVec 4) :
    decode am (0x100#12 ++ rows) = .ok (.scanTick rows) := by
  simp [decode]

@[simp] theorem decode_speedWord (am : ArrowMap) (raw : BitVec 12) :
    decode am (0x2#4 ++ raw) = .ok (.speedTick raw) := by
  simp [decode]

/-! ### KEY sub-decode (30_encoding R86) -/

/-- The high bits of the table's first row of digits select the range 0x30..0x37. -/
theorem lowDigit_bits_iff (code : KeyCode) :
    code.extractLsb' 3 5 = 0b00110#5 ↔ 0x30 ≤ code.toNat ∧ code.toNat ≤ 0x37 := by
  revert code
  decide

/-- The high bits of the table's second row of digits select the range 0x38..0x39. -/
theorem highDigit_bits_iff (code : KeyCode) :
    code.extractLsb' 1 7 = 0b0011100#7 ↔ 0x38 ≤ code.toNat ∧ code.toNat ≤ 0x39 := by
  revert code
  decide

/-- The codes between the symbols: below '#', between '#' and '*', '*' and '0', '9' and 'A', and above 'D'. -/
theorem isSymbolCode_eq_false_iff (code : KeyCode) :
    isSymbolCode code = false ↔
      code.toNat ≤ 0x22 ∨ (0x24 ≤ code.toNat ∧ code.toNat ≤ 0x29) ∨ (0x2B ≤ code.toNat ∧ code.toNat ≤ 0x2F) ∨
      (0x3A ≤ code.toNat ∧ code.toNat ≤ 0x40) ∨ 0x45 ≤ code.toNat := by
  revert code
  decide

theorem decodeKey_lowDigit (am : ArrowMap) (code : KeyCode) (d : Nat) (hd : d ≤ 7) (hcode : code.toNat = 0x30 + d) :
    decodeKey am code = .keyDigitLow (BitVec.ofNat 3 d) := by
  have hbits : code.extractLsb' 3 5 = 0b00110#5 := (lowDigit_bits_iff code).mpr (by omega)
  have hdigit : code.extractLsb' 0 3 = BitVec.ofNat 3 d := by
    apply BitVec.eq_of_toNat_eq
    simp only [BitVec.extractLsb'_toNat, BitVec.toNat_ofNat, Nat.shiftRight_zero]
    omega
  rw [decodeKey, if_pos hbits, hdigit]

theorem decodeKey_highDigit (am : ArrowMap) (code : KeyCode) (d : Nat) (hlow : 8 ≤ d) (hhigh : d ≤ 9)
    (hcode : code.toNat = 0x30 + d) : decodeKey am code = .keyDigitHigh (BitVec.ofNat 1 (d - 8)) := by
  have hnotlow : ¬ code.extractLsb' 3 5 = 0b00110#5 := by
    rw [lowDigit_bits_iff]
    omega
  have hbits : code.extractLsb' 1 7 = 0b0011100#7 := (highDigit_bits_iff code).mpr (by omega)
  have hdigit : code.extractLsb' 0 1 = BitVec.ofNat 1 (d - 8) := by
    apply BitVec.eq_of_toNat_eq
    simp only [BitVec.extractLsb'_toNat, BitVec.toNat_ofNat, Nat.shiftRight_zero]
    omega
  rw [decodeKey, if_neg hnotlow, if_pos hbits, hdigit]

theorem decodeKey_A (am : ArrowMap) : decodeKey am 0x41#8 = if am.upIsA then .keyUp else .keyDown := rfl
theorem decodeKey_B (am : ArrowMap) : decodeKey am 0x42#8 = if am.upIsA then .keyDown else .keyUp := rfl
theorem decodeKey_C (am : ArrowMap) : decodeKey am 0x43#8 = if am.leftIsC then .keyLeft else .keyRight := rfl
theorem decodeKey_D (am : ArrowMap) : decodeKey am 0x44#8 = if am.leftIsC then .keyRight else .keyLeft := rfl
theorem decodeKey_hash (am : ArrowMap) : decodeKey am 0x23#8 = .keyCommit := rfl
theorem decodeKey_star (am : ArrowMap) : decodeKey am 0x2A#8 = .keyStartstop := rfl

/-- A code that is none of the sixteen symbols fails every test of the sub-decode. -/
theorem decodeKey_of_not_symbol (am : ArrowMap) (code : KeyCode) (h : isSymbolCode code = false) :
    decodeKey am code = .keyOther code := by
  rw [isSymbolCode_eq_false_iff] at h
  have hlow : ¬ code.extractLsb' 3 5 = 0b00110#5 := by
    rw [lowDigit_bits_iff]
    omega
  have hhigh : ¬ code.extractLsb' 1 7 = 0b0011100#7 := by
    rw [highDigit_bits_iff]
    omega
  have hne (c : KeyCode) (hc : c ∈ [0x41#8, 0x42#8, 0x43#8, 0x44#8, 0x23#8, 0x2A#8]) : code ≠ c := by
    rintro rfl
    fin_cases hc <;> simp at h
  simp [decodeKey, hlow, hhigh, hne]

end Sys2Proof

namespace Sys2Proof.Machine

/-- KEY of an unknown code completes and changes nothing (30_encoding R90). -/
theorem exec_keyOther (code : KeyCode) (s : State) : exec (.keyOther code) s = .next s := rfl

/-! ### A word at the port (30_encoding R89) -/

section port
variable {s : State} {w : Word} {rest : List Issue} (h : s.inbox = .port w :: rest)
include h

theorem nextIssue_of_port : s.nextIssue = .port w := by simp [State.nextIssue, h]

theorem takeIssue_of_port : s.takeIssue = { s with inbox := rest } := by simp [State.takeIssue, h]

theorem presentedWord_of_port : s.presentedWord = w := by
  rw [State.presentedWord, nextIssue_of_port h]
  rfl

/-- A refused word at the port moves the schedule and sets the mark, and nothing else. -/
theorem step_of_refused_port {why : DecodeReject} (hw : decode s.cfg.arrowMap w = .error why) :
    step s = .next { s with inbox := rest, refused := true } := by
  rw [step, presentedWord_of_port h, hw, nextIssue_of_port h, takeIssue_of_port h]
  rfl

end port

/-! ### Pins and lines (30_encoding R93) -/

@[simp] theorem applyPolarity_activeHigh (v : BitVec 4) : applyPolarity .activeHigh v = v := rfl
@[simp] theorem applyPolarity_activeLow (v : BitVec 4) : applyPolarity .activeLow v = ~~~v := rfl

/-- The scan agent's word is the SCAN_TICK of the pins under ROW_POL. -/
theorem decode_issueWord_scan (am : ArrowMap) (c : Consumer) (pins : BitVec 4) :
    decode am (issueWord am c (.scan pins)) = .ok (.scanTick (applyPolarity Config.rowPol pins)) :=
  decode_scanWord am _

/-! ### The statements of the family -/

/-- Settles O4: the fields of a word decide whether it is refused, and a refused word takes one path through `step`. -/
theorem refusedWordsAreTheReservedOnes : Obligations.RefusedWordsAreTheReservedOnes :=
  ⟨decode_refused_iff, fun _ _ _ _ hport hrefused => step_of_refused_port hport hrefused⟩

/-- Settles O5, from the decoding of each kind of word with an operand. -/
theorem everyOperandValueIsLegal : Obligations.EveryOperandValueIsLegal := by
  refine ⟨fun am w hopc hmbz => ⟨_, decode_of_key am w hopc hmbz⟩, fun am code hcode => ?_, exec_keyOther,
    fun am raw => ?_, fun am rows => ?_⟩
  · rw [keyWord_eq_add, decode_keyWord, decodeKey_of_not_symbol am code hcode]
  · rw [speedWord_eq_add, decode_speedWord]
  · rw [scanWord_eq_add, decode_scanWord]

/-- Settles O6, class by class. -/
theorem keySubDecodeGivesTheSymbolClass : Obligations.KeySubDecodeGivesTheSymbolClass := by
  intro am code
  refine ⟨decodeKey_lowDigit am code, decodeKey_highDigit am code, fun hA => ?_, fun hB => ?_, fun hC => ?_,
    fun hD => ?_, fun hhash => ?_, fun hstar => ?_, fun hother => ⟨?_, exec_keyOther code⟩⟩
  · rw [hA, decodeKey_A]
  · rw [hB, decodeKey_B]
  · rw [hC, decodeKey_C]
  · rw [hD, decodeKey_D]
  · rw [hhash, decodeKey_hash]
  · rw [hstar, decodeKey_star]
  · exact decodeKey_of_not_symbol am code ((isSymbolCode_eq_false_iff code).mpr hother)

/-- Settles O12, for both values of each polarity. -/
theorem pinsAreNormalizedByPolarity : Obligations.PinsAreNormalizedByPolarity := by
  refine ⟨fun am c pins => ?_, fun s => ?_⟩
  · rw [decode_issueWord_scan]
    cases Config.rowPol with
    | activeHigh => rw [applyPolarity_activeHigh]
    | activeLow => rw [applyPolarity_activeLow]
  · rw [State.columnLines]
    cases Config.colPol with
    | activeHigh => rw [applyPolarity_activeHigh]
    | activeLow => rw [applyPolarity_activeLow]

end Sys2Proof.Machine

/-!
Debounce and scan: what one observation does to its key's history and to the queue, a column of observations as one
update of the scan unit followed by the enqueues, and the statement of the family (40_debounce_scan R101 to R108).
-/

namespace Sys2Proof.Machine

/-! ### One history (40_debounce_scan R102 to R105) -/

/-- The history step of R102 in the words of the rule: shift left, OR in the sample. -/
theorem shiftHistory_eq_or (h : BitVec 8) (b : Bool) :
    shiftHistory h b = (h <<< 1) ||| (BitVec.ofBool b).setWidth 8 := by
  have hb : b.toNat < 2 ^ 1 := b.toNat_lt
  apply BitVec.eq_of_toNat_eq
  calc (shiftHistory h b).toNat
      = (h.toNat <<< 1 + b.toNat) % 2 ^ 8 := by
        rw [shiftHistory_toNat, Nat.shiftLeft_eq]
        rfl
    _ = (h.toNat <<< 1 ||| b.toNat) % 2 ^ 8 := by rw [Nat.shiftLeft_add_eq_or_of_lt hb]
    _ = ((h <<< 1) ||| (BitVec.ofBool b).setWidth 8).toNat := by
      rw [Nat.or_mod_two_pow, BitVec.toNat_or, BitVec.toNat_shiftLeft, BitVec.toNat_setWidth, BitVec.toNat_ofBool]

/-- The new history is the Press pattern exactly when the sample is 1 and the seven kept bits are 0 (R103). -/
theorem shiftHistory_eq_press_iff (h : BitVec 8) (b : Bool) :
    shiftHistory h b = 0x01#8 ↔ b = true ∧ h.extractLsb' 0 7 = 0x00#7 := by
  rw [← BitVec.toNat_inj, ← BitVec.toNat_inj, shiftHistory_toNat, BitVec.extractLsb'_toNat, Nat.shiftRight_zero]
  cases b <;> simp <;> omega

/-- The new history is the Release pattern exactly when the sample is 0 and the seven kept bits are 1 (R104). -/
theorem shiftHistory_eq_release_iff (h : BitVec 8) (b : Bool) :
    shiftHistory h b = 0xFE#8 ↔ b = false ∧ h.extractLsb' 0 7 = 0x7F#7 := by
  rw [← BitVec.toNat_inj, ← BitVec.toNat_inj, shiftHistory_toNat, BitVec.extractLsb'_toNat, Nat.shiftRight_zero]
  cases b <;> simp <;> omega

/-- The pattern test on the new history, as `keyEvent` reads it off the old history and the sample. -/
theorem keyEvent_eq_patternEvent (p : Params) (rows : BitVec 4) (u : ScanUnit) (r : Fin 4) :
    keyEvent p rows u r =
      (patternEvent (shiftHistory (u.hist.get (keyIndex u.scanCol r)) (rowSample rows r))).map
        fun kind => { kind := kind, key := keyAt p u.scanCol r } := by
  unfold keyEvent patternEvent rowSample Config.pressPat Config.releasePat
  simp only [shiftHistory_eq_press_iff, shiftHistory_eq_release_iff]
  cases rows.getLsbD r.val
  · by_cases hones : (u.hist.get (keyIndex u.scanCol r)).extractLsb' 0 7 = 0x7F#7 <;> simp [hones]
  · by_cases hzeros : (u.hist.get (keyIndex u.scanCol r)).extractLsb' 0 7 = 0x00#7 <;> simp [hzeros]

/-! ### A run of observations on the histories (40_debounce_scan R102, R108) -/

/-- Every history belongs to one key (10_state R22). -/
theorem exists_keyIndex (k : Fin 16) : ∃ c r, k = keyIndex c r ∧ c.toNat = k.val / 4 ∧ r.val = k.val % 4 := by
  have hc : (BitVec.ofNat 2 (k.val / 4)).toNat = k.val / 4 := by
    rw [BitVec.toNat_ofNat]
    omega
  refine ⟨BitVec.ofNat 2 (k.val / 4), ⟨k.val % 4, by omega⟩, Fin.ext ?_, hc, rfl⟩
  simp only [keyIndex, hc]
  omega

/-- A SCAN_TICK observes every row (R107). -/
theorem mem_rows (r : Fin 4) : r ∈ [(0 : Fin 4), 1, 2, 3] := by
  revert r
  decide

/-- A run over distinct rows of one column shifts each of their histories once and keeps every other. -/
theorem foldl_shiftKey_get (rows : BitVec 4) (c c' : BitVec 2) (r' : Fin 4) (rs : List (Fin 4)) (hrs : rs.Nodup)
    (u : ScanUnit) :
    (rs.foldl (shiftKey rows c) u).hist.get (keyIndex c' r') =
      if c' = c ∧ r' ∈ rs then shiftHistory (u.hist.get (keyIndex c' r')) (rowSample rows r')
      else u.hist.get (keyIndex c' r') := by
  induction rs generalizing u with
  | nil => simp
  | cons r rs ih =>
    obtain ⟨hr, hrs⟩ := List.nodup_cons.mp hrs
    rw [List.foldl_cons, ih hrs]
    by_cases hkey : c' = c ∧ r' = r
    · obtain ⟨rfl, rfl⟩ := hkey
      simp [hr]
    · have hother : keyIndex c' r' ≠ keyIndex c r := fun h => hkey (keyIndex_inj c' c r' r h)
      have hmem : (c' = c ∧ r' ∈ r :: rs) ↔ c' = c ∧ r' ∈ rs := by
        rw [List.mem_cons]
        tauto
      rw [shiftKey_get_other rows c u r _ hother]
      simp only [hmem]

/-- The four shifts of a SCAN_TICK are the shift of R102 on the driven column and nothing on the other twelve keys. -/
theorem foldl_shiftKey_hist (rows : BitVec 4) (u : ScanUnit) :
    ([(0 : Fin 4), 1, 2, 3].foldl (shiftKey rows u.scanCol) u).hist = (scanUnitAfter rows u).hist := by
  apply Vector.ext
  intro i hi
  obtain ⟨c, r, hk, hc, hr⟩ := exists_keyIndex ⟨i, hi⟩
  have hcol : c = u.scanCol ↔ i / 4 = u.scanCol.toNat := by rw [← BitVec.toNat_inj, hc]
  have hget := foldl_shiftKey_get rows u.scanCol c r [0, 1, 2, 3] (by decide) u
  rw [← hk] at hget
  simp only [mem_rows, and_true, hcol, shiftHistory_eq_or, rowSample, hr] at hget
  simpa [scanUnitAfter, Vector.get_eq_getElem] using hget

/-! ### A run of observations on the state (40_debounce_scan R101, R106, R107) -/

/-- The state with another scan unit. -/
def State.withScan (s : State) (u : ScanUnit) : State := { s with scan := u }

/-- The `Enqueue` of each event of a list, the first one first (40_debounce_scan R106). -/
def enqueueAll (es : List KeyEvent) (s : State) : State := es.foldl (fun x e => enqueue e x) s

@[simp] theorem State.withScan_scan (s : State) (u : ScanUnit) : (s.withScan u).scan = u := rfl
@[simp] theorem State.withScan_withScan (s : State) (u v : ScanUnit) : (s.withScan u).withScan v = s.withScan v := rfl

@[simp] theorem enqueueAll_nil (s : State) : enqueueAll [] s = s := rfl
@[simp] theorem enqueueAll_cons (e : KeyEvent) (es : List KeyEvent) (s : State) :
    enqueueAll (e :: es) s = enqueueAll es (enqueue e s) := rfl

/-- `Enqueue` neither reads nor writes the scan unit. -/
theorem enqueue_withScan (e : KeyEvent) (s : State) (u : ScanUnit) :
    enqueue e (s.withScan u) = (enqueue e s).withScan u := by
  unfold enqueue State.withScan
  dsimp only
  split
  · split <;> rfl
  · rfl

/-- No enqueue of a run reads or writes the scan unit. -/
theorem enqueueAll_withScan (es : List KeyEvent) (s : State) (u : ScanUnit) :
    enqueueAll es (s.withScan u) = (enqueueAll es s).withScan u := by
  induction es generalizing s with
  | nil => rfl
  | cons e es ih => rw [enqueueAll_cons, enqueueAll_cons, enqueue_withScan, ih]

/-- One observation at the driven column: its history shifts, then its event, if any, is enqueued. -/
theorem observeKey_eq (rows : BitVec 4) (s : State) (r : Fin 4) :
    observeKey rows s.scan.scanCol s r =
      enqueueAll (keyEvent s.cfg rows s.scan r).toList (s.withScan (shiftKey rows s.scan.scanCol s.scan r)) := by
  rw [keyEvent_eq_patternEvent, ← shiftKey_get_self]
  rcases observeKey_cases rows s.scan.scanCol s r with ⟨hnone, h⟩ | ⟨kind, hsome, h⟩
  · rw [h, hnone]
    rfl
  · rw [h, hsome]
    rfl

/-- Observing one row leaves the event of every other row as it was. -/
theorem keyEvent_shiftKey_other (p : Params) (rows : BitVec 4) (u : ScanUnit) (r r' : Fin 4) (h : r' ≠ r) :
    keyEvent p rows (shiftKey rows u.scanCol u r) r' = keyEvent p rows u r' := by
  have hother : keyIndex u.scanCol r' ≠ keyIndex u.scanCol r := fun hk => h (keyIndex_inj _ _ _ _ hk).2
  rw [keyEvent_eq_patternEvent, keyEvent_eq_patternEvent, shiftKey_scanCol, shiftKey_get_other _ _ _ _ _ hother]

/-- A run over distinct rows may shift all histories first and enqueue the events of the old ones after, in order:
no observation reads a history that another one writes, and `Enqueue` does not touch the scan unit. -/
theorem foldl_observeKey_eq (rows : BitVec 4) (rs : List (Fin 4)) (hrs : rs.Nodup) (s : State) :
    rs.foldl (observeKey rows s.scan.scanCol) s =
      enqueueAll (rs.filterMap (keyEvent s.cfg rows s.scan))
        (s.withScan (rs.foldl (shiftKey rows s.scan.scanCol) s.scan)) := by
  induction rs generalizing s with
  | nil => rfl
  | cons r rs ih =>
    obtain ⟨hr, hrs⟩ := List.nodup_cons.mp hrs
    have hrest := ih hrs (observeKey rows s.scan.scanCol s r)
    have hevents : rs.filterMap (keyEvent s.cfg rows (shiftKey rows s.scan.scanCol s.scan r)) =
        rs.filterMap (keyEvent s.cfg rows s.scan) :=
      List.filterMap_congr fun r' hr' => keyEvent_shiftKey_other _ _ _ _ _ (ne_of_mem_of_not_mem hr' hr)
    rw [observeKey_scan, shiftKey_scanCol, observeKey_cfg, hevents, observeKey_eq, ← enqueueAll_withScan,
      State.withScan_withScan] at hrest
    rw [List.foldl_cons, observeKey_eq, hrest, List.foldl_cons]
    cases hevent : keyEvent s.cfg rows s.scan r with
    | none => rw [List.filterMap_cons_none hevent, Option.toList_none, enqueueAll_nil]
    | some e =>
      rw [List.filterMap_cons_some hevent, Option.toList_some, enqueueAll_cons, enqueueAll_cons, enqueueAll_nil]

/-- The instruction SCAN_TICK is the operation of R101. -/
theorem exec_scanTick (rows : BitVec 4) (s : State) : exec (.scanTick rows) s = execScanTick rows s := rfl

/-- SCAN_TICK as one update of the scan unit and then the enqueues of its events. -/
theorem execScanTick_eq (rows : BitVec 4) (s : State) :
    execScanTick rows s =
      .next (enqueueAll (scanEvents s.cfg rows s.scan) (s.withScan (scanUnitAfter rows s.scan))) := by
  have hobserved : observeColumn rows s.scan.scanCol s =
      (enqueueAll (scanEvents s.cfg rows s.scan) s).withScan
        ([(0 : Fin 4), 1, 2, 3].foldl (shiftKey rows s.scan.scanCol) s.scan) := by
    rw [← enqueueAll_withScan]
    exact foldl_observeKey_eq rows [0, 1, 2, 3] (by decide) s
  have hscan : ScanUnit.mk (observeColumn rows s.scan.scanCol s).scan.hist (nextColumn s.scan.scanCol) =
      scanUnitAfter rows s.scan := by
    rw [hobserved, State.withScan_scan, foldl_shiftKey_hist, nextColumn_eq]
    rfl
  calc execScanTick rows s
      = .next ((observeColumn rows s.scan.scanCol s).withScan (scanUnitAfter rows s.scan)) := by
        rw [← hscan]
        rfl
    _ = .next (enqueueAll (scanEvents s.cfg rows s.scan) (s.withScan (scanUnitAfter rows s.scan))) := by
      rw [hobserved, State.withScan_withScan, enqueueAll_withScan]

/-! ### The statement of the family -/

/-- Settles O15: a column of observations is one update of the scan unit and then the enqueues, and the two pattern
tests on a new history are tests on the old one and the sample. -/
theorem scanTickShiftsThenEnqueuesItsEvents : Obligations.ScanTickShiftsThenEnqueuesItsEvents := by
  refine ⟨fun rows s => ?_, fun h b => ?_⟩
  · rw [exec_scanTick, execScanTick_eq]
    rfl
  · rw [← shiftHistory_eq_or]
    exact ⟨shiftHistory_eq_press_iff h b, shiftHistory_eq_release_iff h b⟩

end Sys2Proof.Machine

/-!
The event queue: what POP and `Enqueue` do in each state of the slot they look at, and the statements of the family
(41_event_queue R132 to R135).
-/

namespace Sys2Proof.Machine

/-! ### The slot an operation looks at (41_event_queue R131) -/

/-- The full test reads `valid` of the slot at `qin`. -/
theorem fullAtIn_eq_getLsbD (q : QueueUnit) : fullAtIn q = (slotAt q q.qin).getLsbD 9 := rfl

/-- The empty test reads `valid` of the slot at `qout`. -/
theorem emptyAtOut_eq_not_getLsbD (q : QueueUnit) : emptyAtOut q = !(slotAt q q.qout).getLsbD 9 := rfl

/-- The kind bit of 10_state R25, as the rule says it: 1 for a Press, 0 for a Release. -/
theorem EventKind.bit_eq_ite (k : EventKind) : k.bit = if k = .press then 1#1 else 0#1 := by
  cases k <;> rfl

/-- `QPush` with the three fields of the slot written out (41_event_queue R132). -/
theorem qPush_eq (p : Params) (e : KeyEvent) (q : QueueUnit) :
    qPush p e q = { q with
      qslot := q.qslot.set q.qin (1#1 ++ (if e.kind = .press then 1#1 else 0#1) ++ e.key)
      qin := (q.qin + 1) % p.qcap } := by
  rw [← EventKind.bit_eq_ite]
  rfl

/-! ### POP (41_event_queue R133, R135) -/

/-- The instruction POP is the operation of R135. -/
theorem exec_pop (s : State) : exec .pop s = execPop s := rfl

/-- POP of an unread event returns it, clears its slot and advances `qout`. -/
theorem exec_pop_of_nonempty (s : State) (h : emptyAtOut s.queue = false) :
    exec .pop s = .next { s with
      popResult := slotResult (slotAt s.queue s.queue.qout)
      queue := { s.queue with
        qslot := s.queue.qslot.set s.queue.qout 0#10, qout := (s.queue.qout + 1) % s.cfg.qcap } } := by
  rcases qPop_cases s.cfg s.queue with ⟨hempty, -, -⟩ | ⟨-, hqueue, hresult⟩
  · exact nomatch h.symm.trans hempty
  · rw [exec_pop, execPop, hqueue, hresult]

/-- POP at an empty slot returns 0x0000 and writes no register of the block. -/
theorem exec_pop_of_empty (s : State) (h : emptyAtOut s.queue = true) :
    exec .pop s = .next { s with popResult := 0x0000#16 } := by
  rcases qPop_cases s.cfg s.queue with ⟨-, hqueue, hresult⟩ | ⟨hnonempty, -, -⟩
  · rw [exec_pop, execPop, hqueue, hresult]
  · exact nomatch h.symm.trans hnonempty

/-! ### `Enqueue` (41_event_queue R134) -/

/-- `Enqueue` at a free slot is `QPush`, under either policy. -/
theorem enqueue_of_free (e : KeyEvent) (s : State) (h : fullAtIn s.queue = false) :
    enqueue e s = { s with queue := qPush s.cfg e s.queue } := by
  rcases enqueue_cases e s with ⟨-, heq⟩ | ⟨hfull, -, -⟩ | ⟨hfull, -, -⟩
  · exact heq
  · exact nomatch h.symm.trans hfull
  · exact nomatch h.symm.trans hfull

/-- `Enqueue` at a full slot under Drop counts the lost event and does nothing else. -/
theorem enqueue_of_full_drop (e : KeyEvent) (s : State) (h : fullAtIn s.queue = true)
    (hpolicy : s.cfg.enqFullPolicy = .drop) : enqueue e s = { s with lost := s.lost + 1 } := by
  rcases enqueue_cases e s with ⟨hfree, -⟩ | ⟨-, -, heq⟩ | ⟨-, hother, -⟩
  · exact nomatch h.symm.trans hfree
  · exact heq
  · exact nomatch hpolicy.symm.trans hother

/-- `Enqueue` at a full slot under Overwrite counts the lost event and is `QPush`. -/
theorem enqueue_of_full_overwrite (e : KeyEvent) (s : State) (h : fullAtIn s.queue = true)
    (hpolicy : s.cfg.enqFullPolicy = .overwrite) :
    enqueue e s = { s with lost := s.lost + 1, queue := qPush s.cfg e s.queue } := by
  rcases enqueue_cases e s with ⟨hfree, -⟩ | ⟨-, hother, -⟩ | ⟨-, -, heq⟩
  · exact nomatch h.symm.trans hfree
  · exact nomatch hpolicy.symm.trans hother
  · exact heq

/-! ### The statements of the family -/

/-- Settles O20: the `valid` bit of the slot at `qout` decides between the two cases of POP. -/
theorem popReturnsAndClearsTheOutputSlot : Obligations.PopReturnsAndClearsTheOutputSlot := by
  intro s
  refine ⟨fun hvalid => ?_, fun hvalid => ?_⟩
  · exact exec_pop_of_nonempty s (by rw [emptyAtOut_eq_not_getLsbD, hvalid, Bool.not_true])
  · exact exec_pop_of_empty s (by rw [emptyAtOut_eq_not_getLsbD, hvalid, Bool.not_false])

/-- Settles O21: the `valid` bit of the slot at `qin` and the policy decide between the three cases of `Enqueue`. -/
theorem enqueueFollowsTheFullPolicy : Obligations.EnqueueFollowsTheFullPolicy := by
  intro e s
  dsimp only
  rw [← fullAtIn_eq_getLsbD, ← qPush_eq]
  exact ⟨enqueue_of_free e s, enqueue_of_full_drop e s, enqueue_of_full_overwrite e s⟩

end Sys2Proof.Machine

/-!
The speed estimator: the estimate and the window's average fit their registers, SPEED_TICK at a rising crossing and
without one, and the statement of the family (42_speed_estimator R152 to R158).
-/

namespace Sys2Proof.Machine

/-! ### The estimates fit their registers (42_speed_estimator R154, R157) -/

/-- The estimate over a counted interval is the rounded quotient: it fits, and the zero guard is not taken (R158). -/
theorem instantRpm_toNat_of_pos (p : Params) (hfits : 6000 * p.tps < 2 ^ 32) (elapsed : BitVec 32)
    (hpos : 1 ≤ elapsed.toNat) : (instantRpm p elapsed).toNat = rhu (6000 * p.tps) elapsed.toNat := by
  have hne : elapsed ≠ 0#32 := fun h => absurd (h ▸ hpos) (by decide)
  have hle : rhu (6000 * p.tps) elapsed.toNat ≤ 6000 * p.tps :=
    rhu_le _ _ _ (Nat.le_mul_of_pos_right _ hpos)
  rw [instantRpm, if_neg hne, BitVec.toNat_ofNat, Nat.mod_eq_of_lt (hle.trans_lt hfits)]

/-- The rounded average of a non-empty window is no more than its largest possible entry, so it fits. -/
theorem rhu_window_lt (window : List (BitVec 32)) (n : Nat) (hlen : window.length = n) :
    rhu (window.map BitVec.toNat).sum n < 2 ^ 32 := by
  have hentry : ∀ v ∈ window.map BitVec.toNat, v ≤ 2 ^ 32 - 1 := by
    intro v hv
    obtain ⟨w, -, rfl⟩ := List.mem_map.mp hv
    exact Nat.le_sub_one_of_lt w.isLt
  have hsum : (window.map BitVec.toNat).sum ≤ (2 ^ 32 - 1) * n := by
    have hcard := List.sum_le_card_nsmul _ _ hentry
    rwa [List.length_map, hlen, smul_eq_mul, Nat.mul_comm] at hcard
  have hle := rhu_le _ _ _ hsum
  omega

/-- With a window, the stored `rpm` is the rounded average of the window that holds the new estimate (R157). -/
theorem storeBoxcar_rpm_toNat (p : Params) (inst : BitVec 32) (u : SpeedUnit) (hmany : 1 < p.boxcarN)
    (hlen : u.rpmHist.length = p.boxcarSlots) :
    (storeBoxcar p inst u).rpm.toNat = rhu ((storeBoxcar p inst u).rpmHist.map BitVec.toNat).sum p.boxcarN := by
  have hwindow : (u.rpmHist.set u.rpmIdx inst).length = p.boxcarN := by
    rw [List.length_set, hlen, Params.boxcarSlots, if_pos hmany]
  rw [storeBoxcar_many p inst u hmany.ne']
  exact (BitVec.toNat_ofNat _ _).trans (Nat.mod_eq_of_lt (rhu_window_lt _ _ hwindow))

/-! ### The crossing and the stall test (42_speed_estimator R153 to R156) -/

theorem aboveThreshold_iff (p : Params) (raw : BitVec 12) : aboveThreshold p raw = true ↔ p.threshRaw ≤ raw.toNat :=
  decide_eq_true_iff

theorem aboveThreshold_eq_false_iff (p : Params) (raw : BitVec 12) :
    aboveThreshold p raw = false ↔ raw.toNat < p.threshRaw := by
  rw [← Bool.not_eq_true, aboveThreshold_iff, Nat.not_le]

theorem stalled_iff (p : Params) (u : SpeedUnit) :
    stalled p u = true ↔ u.spState = .below ∧ p.stallTicks < u.elapsed.toNat := by
  rw [stalled, Bool.and_eq_true, decide_eq_true_iff, decide_eq_true_iff]

/-- A low level under a high sample is a rising crossing (R154). -/
theorem crossThreshold_of_rising (p : Params) (raw : BitVec 12) (u : SpeedUnit) (hbelow : u.spState = .below)
    (hhigh : p.threshRaw ≤ raw.toNat) :
    crossThreshold p raw u =
      { storeBoxcar p (instantRpm p u.elapsed) u with elapsed := 0#32, spState := .above } := by
  rw [crossThreshold, hbelow, (aboveThreshold_iff p raw).mpr hhigh]

/-- The level of the sample, and nothing else changed: what R153 and R155 leave without a rising crossing. -/
def followSample (p : Params) (raw : BitVec 12) (u : SpeedUnit) : SpeedUnit :=
  { u with spState := if raw.toNat < p.threshRaw then .below else .above }

@[simp] theorem followSample_elapsed (p : Params) (raw : BitVec 12) (u : SpeedUnit) :
    (followSample p raw u).elapsed = u.elapsed := rfl

theorem followSample_of_low (p : Params) (raw : BitVec 12) (u : SpeedUnit) (h : raw.toNat < p.threshRaw) :
    followSample p raw u = { u with spState := .below } := by
  rw [followSample, if_pos h]

theorem followSample_of_high (p : Params) (raw : BitVec 12) (u : SpeedUnit) (h : ¬ raw.toNat < p.threshRaw) :
    followSample p raw u = { u with spState := .above } := by
  rw [followSample, if_neg h]

theorem followSample_below_iff (p : Params) (raw : BitVec 12) (u : SpeedUnit) :
    (followSample p raw u).spState = .below ↔ raw.toNat < p.threshRaw := by
  simp [followSample]

/-- A level that is already the sample's stays. -/
theorem followSample_eq_self (p : Params) (raw : BitVec 12) (u : SpeedUnit)
    (h : u.spState = .below ↔ raw.toNat < p.threshRaw) : followSample p raw u = u := by
  by_cases hlow : raw.toNat < p.threshRaw
  · rw [followSample_of_low p raw u hlow, ← h.mpr hlow]
  · have habove : u.spState = .above := by
      cases hu : u.spState with
      | below => exact absurd (h.mp hu) hlow
      | above => rfl
    rw [followSample_of_high p raw u hlow, ← habove]

/-- Without a rising crossing the level follows the sample and nothing else changes (R153, R155). -/
theorem crossThreshold_of_not_rising (p : Params) (raw : BitVec 12) (u : SpeedUnit)
    (hrising : ¬ (u.spState = .below ∧ p.threshRaw ≤ raw.toNat)) :
    crossThreshold p raw u = followSample p raw u := by
  rcases crossThreshold_cases p raw u with ⟨hbelow, hhigh, -⟩ | ⟨-, hlow, heq⟩ | ⟨hlevel, heq⟩
  · exact absurd ⟨hbelow, (aboveThreshold_iff p raw).mp hhigh⟩ hrising
  · rw [heq, followSample_of_low p raw u ((aboveThreshold_eq_false_iff p raw).mp hlow)]
  · rw [heq, followSample_eq_self p raw u (hlevel.trans (aboveThreshold_eq_false_iff p raw))]

theorem stallTest_of_not_stalled (p : Params) (u : SpeedUnit)
    (h : ¬ (u.spState = .below ∧ p.stallTicks < u.elapsed.toNat)) : stallTest p u = u := by
  rw [← stalled_iff] at h
  rw [stallTest, if_neg h]

/-- A stall clears `rpm`, and the window when there is one (R151, R156). -/
theorem stallTest_of_stalled (p : Params) (u : SpeedUnit)
    (h : u.spState = .below ∧ p.stallTicks < u.elapsed.toNat) :
    (stallTest p u).rpm = 0#32 ∧
    (1 < p.boxcarN → (stallTest p u).rpmHist = List.replicate p.boxcarN 0#32 ∧ (stallTest p u).rpmIdx = 0) ∧
    (p.boxcarN = 1 → (stallTest p u).rpmHist = u.rpmHist ∧ (stallTest p u).rpmIdx = u.rpmIdx) := by
  rw [← stalled_iff] at h
  rcases stallTest_cases p u with ⟨hno, -⟩ | ⟨-, hmany, heq⟩ | ⟨-, hone, heq⟩
  · exact nomatch h.symm.trans hno
  · rw [heq]
    exact ⟨rfl, fun _ => ⟨rfl, rfl⟩, fun hN => absurd hN hmany.ne'⟩
  · rw [heq]
    exact ⟨rfl, fun hN => absurd hN hone, fun _ => ⟨rfl, rfl⟩⟩

/-! ### SPEED_TICK (42_speed_estimator R151) -/

/-- What SPEED_TICK leaves in the speed unit: the count, then the crossing, then the stall test (R151). -/
def speedUnitAfter (p : Params) (raw : BitVec 12) (u : SpeedUnit) : SpeedUnit :=
  stallTest p (crossThreshold p raw (countTick u))

/-- SPEED_TICK writes the speed unit only. -/
theorem exec_speedTick (raw : BitVec 12) (s : State) :
    exec (.speedTick raw) s = .next { s with speed := speedUnitAfter s.cfg raw s.speed } := rfl

/-- At a rising crossing the counted interval is measured, and the stall test finds the level above (R154). -/
theorem speedUnitAfter_of_rising (p : Params) (raw : BitVec 12) (u : SpeedUnit) (hbelow : u.spState = .below)
    (hhigh : p.threshRaw ≤ raw.toNat) :
    speedUnitAfter p raw u =
      { storeBoxcar p (instantRpm p (countTick u).elapsed) (countTick u) with elapsed := 0#32, spState := .above } := by
  rw [speedUnitAfter, crossThreshold_of_rising p raw (countTick u) hbelow hhigh]
  exact stallTest_of_not_stalled p _ fun h => nomatch h.1

/-- Without a rising crossing SPEED_TICK is the stall test of the counted unit at the sample's level (R155, R156). -/
theorem speedUnitAfter_of_not_rising (p : Params) (raw : BitVec 12) (u : SpeedUnit)
    (hrising : ¬ (u.spState = .below ∧ p.threshRaw ≤ raw.toNat)) :
    speedUnitAfter p raw u = stallTest p (followSample p raw (countTick u)) := by
  rw [speedUnitAfter, crossThreshold_of_not_rising p raw (countTick u) hrising]

/-- The interval SPEED_TICK measures: this tick counted, saturating (R152). -/
theorem countTick_elapsed_toNat (u : SpeedUnit) :
    (countTick u).elapsed.toNat = min (u.elapsed.toNat + 1) (2 ^ 32 - 1) := by
  rw [countTick_elapsed, sat32_toNat]

/-- The estimate at a crossing, in the words of R154. -/
theorem instantRpm_countTick (p : Params) (hfits : 6000 * p.tps < 2 ^ 32) (u : SpeedUnit) :
    (instantRpm p (countTick u).elapsed).toNat = rhu (6000 * p.tps) (min (u.elapsed.toNat + 1) (2 ^ 32 - 1)) := by
  rw [instantRpm_toNat_of_pos p hfits _ (countTick_elapsed_pos u), countTick_elapsed_toNat]

/-! ### The statement of the family -/

/-- Settles O28: the crossing test splits the tick into a measurement, which no stall test follows, and a tick that
follows the sample and is tested for a stall. -/
theorem speedTickCountsCrossesAndStalls : Obligations.SpeedTickCountsCrossesAndStalls := by
  intro s raw hvalid hshaped e rising belowAfter
  obtain ⟨-, -, -, hfits, -⟩ := hvalid
  obtain ⟨-, -, -, hlen, -⟩ := hshaped
  refine ⟨_, exec_speedTick raw s, fun ⟨hbelow, hhigh⟩ => ?_, fun hrising => ?_⟩
  · have hinst := instantRpm_countTick s.cfg hfits s.speed
    rw [speedUnitAfter_of_rising s.cfg raw s.speed hbelow hhigh]
    refine ⟨rfl, rfl, fun hone => ?_, fun hmany => ?_⟩
    · rw [storeBoxcar_one _ _ _ hone]
      exact ⟨hinst, rfl, rfl⟩
    · have hrpm := storeBoxcar_rpm_toNat s.cfg (instantRpm s.cfg (countTick s.speed).elapsed) (countTick s.speed)
        hmany hlen
      rw [storeBoxcar_many _ _ _ hmany.ne'] at hrpm ⊢
      rw [← hinst, BitVec.ofNat_toNat, BitVec.setWidth_eq]
      exact ⟨rfl, rfl, hrpm⟩
  · rw [speedUnitAfter_of_not_rising s.cfg raw s.speed hrising]
    have hstall : ((followSample s.cfg raw (countTick s.speed)).spState = .below ∧
        s.cfg.stallTicks < (followSample s.cfg raw (countTick s.speed)).elapsed.toNat) ↔
          belowAfter ∧ s.cfg.stallTicks < e := by
      rw [followSample_below_iff, followSample_elapsed, countTick_elapsed_toNat]
    refine ⟨?_, fun hlow => ?_, fun hhigh => ?_, fun hyes => ?_, fun hno => ?_⟩
    · rw [stallTest_elapsed, followSample_elapsed]
      exact countTick_elapsed_toNat s.speed
    · rw [stallTest_spState, followSample_of_low s.cfg raw _ hlow]
    · rw [stallTest_spState, followSample_of_high s.cfg raw _ hhigh]
    · exact stallTest_of_stalled s.cfg _ (hstall.mpr hyes)
    · rw [stallTest_of_not_stalled s.cfg _ (mt hstall.mp hno)]
      exact ⟨rfl, rfl, rfl⟩

end Sys2Proof.Machine

/-!
The numeric entry machine: each key as one update of the entry unit, the numbers the cursor and the setpoint registers
hold after it, and the statements of the family (43_setpoint_entry R171 to R177, 44_duty_controller R201).
-/

namespace Sys2Proof.Machine

/-! ### The keys (43_setpoint_entry R171 to R176) -/

section keys
variable (s : State)

theorem exec_keyDigitLow (x : BitVec 3) :
    exec (.keyDigitLow x) s = .next { s with entry := writeDigit (lowDigit x) s.entry } := rfl

theorem exec_keyDigitHigh (x : BitVec 1) :
    exec (.keyDigitHigh x) s = .next { s with entry := writeDigit (highDigit x) s.entry } := rfl

theorem exec_keyUp : exec .keyUp s = .next { s with entry := rowUp s.entry } := rfl
theorem exec_keyDown : exec .keyDown s = .next { s with entry := rowDown s.entry } := rfl
theorem exec_keyLeft : exec .keyLeft s = .next { s with entry := columnLeft s.entry } := rfl
theorem exec_keyRight : exec .keyRight s = .next { s with entry := columnRight s.entry } := rfl

theorem exec_keyCommit :
    exec .keyCommit s = .next { s with
      setpoints := storeSetpoint s.entry.curRow (bufferValue s.entry.digBuf) s.setpoints
      entry := entryAfterCommit s.entry } := rfl

/-- All that CONTROL_TICK does to the entry machine is the deferred advance (44_duty_controller R201). -/
theorem exec_controlTick_entry : ∃ u, exec .controlTick s = .next u ∧ u.entry = advanceCursor s.entry :=
  ⟨_, rfl, rfl⟩

end keys

/-! ### The cursor (43_setpoint_entry R172 to R176, 44_duty_controller R201) -/

section cursor
variable (u : EntryUnit)

theorem rowUp_curRow_toNat : (rowUp u).curRow.toNat = u.curRow.toNat - 1 := by
  rw [rowUp_curRow, BitVec.toNat_ofNat]
  omega

theorem rowDown_curRow_toNat : (rowDown u).curRow.toNat = min (u.curRow.toNat + 1) 2 := by
  rw [rowDown_curRow, BitVec.toNat_ofNat]
  omega

theorem columnLeft_curCol_toNat : (columnLeft u).curCol.toNat = u.curCol.toNat - 1 := by
  rw [columnLeft_curCol, BitVec.toNat_ofNat]
  omega

theorem columnRight_curCol_toNat : (columnRight u).curCol.toNat = min (u.curCol.toNat + 1) 4 := by
  rw [columnRight_curCol, BitVec.toNat_ofNat]
  omega

/-- After a commit the cursor stands on the next row, with wrap (R176). -/
theorem entryAfterCommit_curRow_toNat : (entryAfterCommit u).curRow.toNat = (u.curRow.toNat + 1) % 3 := by
  rw [entryAfterCommit_curRow, BitVec.toNat_ofNat]
  omega

/-- With the digit flag set, the deferred advance is the move to the right and clears the flag. -/
theorem advanceCursor_of_digitEntered (h : u.digitEntered = true) :
    advanceCursor u = { columnRight u with digitEntered := false } := by
  rw [advanceCursor, if_pos h]

end cursor

/-! ### The setpoint registers (43_setpoint_entry R176, R177) -/

/-- A commit puts a five-digit value in the register of its row, and the other registers keep theirs. -/
theorem storeSetpoint_toNat (row : BitVec 2) (n : Nat) (u : Setpoints) (hn : n ≤ 99999) :
    (storeSetpoint row n u).spVolt.toNat = (if row = 0#2 then n else u.spVolt.toNat) ∧
    (storeSetpoint row n u).spSpeed.toNat = (if row = 1#2 then n else u.spSpeed.toNat) ∧
    (storeSetpoint row n u).spMax.toNat = (if row = 2#2 then n else u.spMax.toNat) := by
  rcases storeSetpoint_cases row n u with ⟨rfl, heq⟩ | ⟨rfl, heq⟩ | ⟨rfl, heq⟩ | ⟨rfl, heq⟩ <;> rw [heq]
  · exact ⟨setpoint_fits n hn, rfl, rfl⟩
  · exact ⟨rfl, setpoint_fits n hn, rfl⟩
  · exact ⟨rfl, rfl, setpoint_fits n hn⟩
  · exact ⟨rfl, rfl, rfl⟩

/-! ### The statements of the family -/

/-- Settles O33: a key of either row of digits is the same `writeDigit`, and the flag it sets makes the next tick
advance the cursor. -/
theorem digitKeyWritesTheCursorSlot : Obligations.DigitKeyWritesTheCursorSlot := by
  intro s i d _ hkey
  obtain ⟨digit, hexec, hdigit⟩ : ∃ digit : BitVec 4,
      exec i s = .next { s with entry := writeDigit digit s.entry } ∧ digit.toNat = d := by
    rcases hkey with ⟨x, rfl, rfl⟩ | ⟨x, rfl, rfl⟩
    · exact ⟨_, exec_keyDigitLow s x, lowDigit_toNat x⟩
    · exact ⟨_, exec_keyDigitHigh s x, highDigit_toNat x⟩
  obtain ⟨u, htick, hentry⟩ := exec_controlTick_entry { s with entry := writeDigit digit s.entry }
  rw [advanceCursor_of_digitEntered _ (writeDigit_digitEntered _ _)] at hentry
  refine ⟨(writeDigit digit s.entry).digBuf, _, u, rfl, hexec, fun j => ?_, htick, ?_, ?_⟩
  · rw [writeDigit_get, apply_ite BitVec.toNat, hdigit]
  · rw [hentry]
    exact columnRight_curCol_toNat (writeDigit digit s.entry)
  · rw [hentry]

/-- Settles O34, arrow by arrow. -/
theorem arrowsMoveTheCursorClamped : Obligations.ArrowsMoveTheCursorClamped := fun s =>
  ⟨⟨_, exec_keyUp s, rowUp_curRow_toNat s.entry⟩, ⟨_, exec_keyDown s, rowDown_curRow_toNat s.entry⟩,
    ⟨_, exec_keyLeft s, columnLeft_curCol_toNat s.entry⟩, ⟨_, exec_keyRight s, columnRight_curCol_toNat s.entry⟩⟩

/-- Settles O35: five decimal digits make a value that fits the register it is stored in. -/
theorem commitStoresTheBufferValue : Obligations.CommitStoresTheBufferValue := by
  intro s _ hdigits
  have hfits : bufferValue s.entry.digBuf ≤ 99999 := bufferValue_le s.entry.digBuf hdigits
  exact ⟨_, _, exec_keyCommit s, entryAfterCommit_curRow_toNat s.entry, hfits,
    storeSetpoint_toNat s.entry.curRow _ s.setpoints hfits⟩

end Sys2Proof.Machine

/-!
The duty controller and the start/stop latch: the duties a tick writes and the exact numbers they hold, case by case of
the setpoints, the two callers of `Toggle()`, and the statements of the family (44_duty_controller R200 to R207).
-/

namespace Sys2Proof.Machine

/-! ### The start/stop latch (44_duty_controller R206, R207) -/

theorem exec_edge (s : State) : exec .edge s = .next { s with latch := toggle s.latch } := rfl

theorem exec_keyStartstop (s : State) : exec .keyStartstop s = .next { s with latch := toggle s.latch } := rfl

/-- Both callers perform `Toggle()` and nothing else (R207, 43_setpoint_entry R178). -/
theorem exec_eq_toggle (s : State) (i : Instr) (hi : i ∈ [Instr.edge, Instr.keyStartstop]) :
    exec i s = .next { s with latch := toggle s.latch } := by
  rcases List.mem_pair.mp hi with rfl | rfl
  · exact exec_edge s
  · exact exec_keyStartstop s

/-- `Toggle()` with its three outcomes written out (R206). -/
theorem toggle_eq (u : MotorLatch) :
    toggle u =
      if u.running = true ∨ u.pwmEnabled = true then { running := false, pwmEnabled := false, vth := u.vth }
      else if u.vth = false then { running := true, pwmEnabled := true, vth := u.vth }
      else u := by
  rcases toggle_cases u with ⟨hset, heq⟩ | ⟨hrun, hpwm, hvth, heq⟩ | ⟨hrun, hpwm, hvth, heq⟩ <;> rw [heq]
  · rw [if_pos hset]
  · simp [hrun, hpwm, hvth]
  · simp [hrun, hpwm, hvth]

/-! ### The voltage mapping (44_duty_controller R202) -/

section voltage
variable (p : Params) (v : BitVec 17)

/-- With the battery below the ceiling, "too high" is the one comparison with the ceiling. -/
theorem voltageTooHigh_eq_decide (hceil : p.battCv < p.ceilCv) : voltageTooHigh p v = decide (p.ceilCv < v.toNat) := by
  rcases voltageMap_cases p v with ⟨hle, hvth, -⟩ | ⟨-, hle, hvth, -⟩ | ⟨-, hgt, hvth, -⟩ <;> rw [hvth]
  · exact (decide_eq_false (by omega)).symm
  · exact (decide_eq_false (by omega)).symm
  · exact (decide_eq_true hgt).symm

/-- Up to the battery voltage the buck stage scales it down and the boost stage rests. -/
theorem voltageMap_of_le_batt (h : v.toNat ≤ p.battCv) :
    buckDuty p v.toNat = rhu (10000 * v.toNat) p.battCv ∧ boostDuty p v.toNat = 0 := by
  rcases voltageMap_cases p v with ⟨-, -, hduties⟩ | ⟨hgt, -⟩ | ⟨hgt, -⟩
  · exact hduties
  · omega
  · omega

/-- Between the battery and the ceiling the buck stage passes everything and the boost stage raises it. -/
theorem voltageMap_of_between (hbatt : p.battCv < v.toNat) (hceil : v.toNat ≤ p.ceilCv) :
    buckDuty p v.toNat = 10000 ∧ boostDuty p v.toNat = rhu (10000 * (v.toNat - p.battCv)) v.toNat := by
  rcases voltageMap_cases p v with ⟨hle, -⟩ | ⟨-, -, -, hduties⟩ | ⟨-, hgt, -⟩
  · omega
  · exact hduties
  · omega

/-- Above both voltages neither stage runs. -/
theorem voltageMap_of_ceil_lt (hbatt : p.battCv < v.toNat) (hceil : p.ceilCv < v.toNat) :
    buckDuty p v.toNat = 0 ∧ boostDuty p v.toNat = 0 := by
  rcases voltageMap_cases p v with ⟨hle, -⟩ | ⟨-, hle, -⟩ | ⟨-, -, -, hduties⟩
  · omega
  · omega
  · exact hduties

end voltage

/-! ### The H-bridge and the gating (44_duty_controller R203, R204) -/

theorem hBridgeDuty_eq_zero (vth : Bool) (speed max : Nat) (h : vth = true ∨ max = 0) :
    hBridgeDuty vth speed max = 0 := by
  rw [hBridgeDuty, if_pos h]

theorem hBridgeDuty_of_drive (vth : Bool) (speed max : Nat) (hvth : vth = false) (hmax : max ≠ 0) :
    hBridgeDuty vth speed max = min 10000 (rhu (10000 * speed) max) := by
  rcases hBridgeDuty_cases vth speed max with ⟨hzero, -⟩ | ⟨-, -, heq⟩
  · simp [hvth, hmax] at hzero
  · exact heq

@[simp] theorem gateOutputs_false (hb boost buck : Nat) :
    gateOutputs false hb boost buck =
      { dutyHB := 0#14, dutyBoost := 0#14, dutyBuck := 0#14, pwmOutEn := false } := rfl

/-- An enabled stage holds the duties themselves, each of which fits its register. -/
theorem gateOutputs_true_toNat (hb boost buck : Nat) (hhb : hb ≤ 10000) (hboost : boost ≤ 10000)
    (hbuck : buck ≤ 10000) :
    (gateOutputs true hb boost buck).dutyHB.toNat = hb ∧
    (gateOutputs true hb boost buck).dutyBoost.toNat = boost ∧
    (gateOutputs true hb boost buck).dutyBuck.toNat = buck :=
  ⟨duty_fits hb hhb, duty_fits boost hboost, duty_fits buck hbuck⟩

/-! ### The cursor advance (44_duty_controller R201) -/

section advance
variable (u : EntryUnit)

@[simp] theorem advanceCursor_curRow : (advanceCursor u).curRow = u.curRow := by
  rcases advanceCursor_cases u with ⟨-, h⟩ | ⟨-, h⟩ <;> rw [h]

@[simp] theorem advanceCursor_digBuf : (advanceCursor u).digBuf = u.digBuf := by
  rcases advanceCursor_cases u with ⟨-, h⟩ | ⟨-, h⟩ <;> rw [h]

@[simp] theorem advanceCursor_digitEntered : (advanceCursor u).digitEntered = false := by
  rcases advanceCursor_cases u with ⟨-, h⟩ | ⟨hflag, h⟩ <;> rw [h]
  exact hflag

theorem advanceCursor_curCol_toNat :
    (advanceCursor u).curCol.toNat = if u.digitEntered then min (u.curCol.toNat + 1) 4 else u.curCol.toNat := by
  rcases advanceCursor_cases u with ⟨hflag, -⟩ | ⟨hflag, h⟩
  · rw [advanceCursor_of_digitEntered u hflag, if_pos hflag]
    exact columnRight_curCol_toNat u
  · rw [h, hflag, if_neg Bool.false_ne_true]

end advance

/-! ### CONTROL_TICK (44_duty_controller R200) -/

/-- What a CONTROL_TICK that finds `vth` as given leaves in the output stage (R202 to R204). -/
def outputAfterTick (vth : Bool) (s : State) : OutputStage :=
  gateOutputs s.latch.pwmEnabled (hBridgeDuty vth s.setpoints.spSpeed.toNat s.setpoints.spMax.toNat)
    (boostDuty s.cfg s.setpoints.spVolt.toNat) (buckDuty s.cfg s.setpoints.spVolt.toNat)

/-- CONTROL_TICK writes `vth`, the output stage and the cursor only. -/
theorem exec_controlTick (s : State) :
    exec .controlTick s = .next { s with
      latch := { s.latch with vth := voltageTooHigh s.cfg s.setpoints.spVolt }
      output := outputAfterTick (voltageTooHigh s.cfg s.setpoints.spVolt) s
      entry := advanceCursor s.entry } := rfl

@[simp] theorem outputAfterTick_pwmOutEn (vth : Bool) (s : State) :
    (outputAfterTick vth s).pwmOutEn = s.latch.pwmEnabled :=
  gateOutputs_pwmOutEn _ _ _ _

/-- With the latch clear the stage is off (R204). -/
theorem outputAfterTick_of_disabled (vth : Bool) (s : State) (h : s.latch.pwmEnabled = false) :
    outputAfterTick vth s = { dutyHB := 0#14, dutyBoost := 0#14, dutyBuck := 0#14, pwmOutEn := false } := by
  rw [outputAfterTick, h, gateOutputs_false]

/-- With the latch set the duty registers hold the mapped duties (R204). -/
theorem outputAfterTick_toNat_of_enabled (vth : Bool) (s : State) (h : s.latch.pwmEnabled = true) :
    (outputAfterTick vth s).dutyHB.toNat = hBridgeDuty vth s.setpoints.spSpeed.toNat s.setpoints.spMax.toNat ∧
    (outputAfterTick vth s).dutyBoost.toNat = boostDuty s.cfg s.setpoints.spVolt.toNat ∧
    (outputAfterTick vth s).dutyBuck.toNat = buckDuty s.cfg s.setpoints.spVolt.toNat := by
  rw [outputAfterTick, h]
  exact gateOutputs_true_toNat _ _ _ (hBridgeDuty_le _ _ _) (boostDuty_le _ _) (buckDuty_le _ _)

/-! ### The statements of the family -/

/-- Settles O38: both operations are `Toggle()`, whose three outcomes are R206's. -/
theorem edgeAndStartStopToggleTheLatch : Obligations.EdgeAndStartStopToggleTheLatch := by
  intro s i hi
  rw [exec_eq_toggle s i hi, toggle_eq]

/-- Settles O41: valid parameters make `vth` the comparison with the ceiling; the latch then decides whether the stage
is off or holds the mapped duties, which the voltage cases and the H-bridge cases give as numbers. -/
theorem controlTickMapsSetpointsToDuties : Obligations.ControlTickMapsSetpointsToDuties := by
  intro s hvalid v
  obtain ⟨-, -, -, -, -, hceil, -⟩ := hvalid
  have htick := exec_controlTick s
  rw [voltageTooHigh_eq_decide s.cfg s.setpoints.spVolt hceil] at htick
  refine ⟨_, _, htick, outputAfterTick_pwmOutEn _ s, fun hoff => ?_, fun hon => ?_, advanceCursor_curRow s.entry,
    advanceCursor_digBuf s.entry, advanceCursor_digitEntered s.entry, advanceCursor_curCol_toNat s.entry⟩
  · rw [outputAfterTick_of_disabled _ s hoff]
    exact ⟨rfl, rfl, rfl⟩
  · obtain ⟨hhb, hboost, hbuck⟩ := outputAfterTick_toNat_of_enabled (decide (s.cfg.ceilCv < v)) s hon
    rw [hhb, hboost, hbuck]
    refine ⟨voltageMap_of_le_batt s.cfg _, fun ⟨hlow, hhigh⟩ => voltageMap_of_between s.cfg _ hlow hhigh,
      fun hhigh => ?_, fun ⟨_, hmax⟩ => hBridgeDuty_eq_zero _ _ _ (.inr hmax),
      fun ⟨hle, hmax⟩ => hBridgeDuty_of_drive _ _ _ (decide_eq_false hle.not_gt) hmax⟩
    obtain ⟨hnobuck, hnoboost⟩ := voltageMap_of_ceil_lt s.cfg s.setpoints.spVolt (hceil.trans hhigh) hhigh
    exact ⟨hnobuck, hnoboost, hBridgeDuty_eq_zero _ _ _ (.inl (decide_eq_true hhigh))⟩

end Sys2Proof.Machine


/-!
The round trip of the encoding: every word that decodes is one of the encoder's words, and the statements about the
decoder, the encoder and the operations as text writes them (30_encoding R81 to R91).
-/

namespace Sys2Proof

/-! ### Words and codes from their fields (30_encoding R80, R81) -/

/-- Format N and the format of SPEED_TICK: the opcode and twelve bits. -/
theorem opcField_append_rawField (w : Word) : opcField w ++ rawField w = w := by
  rw [opcField, rawField, BitVec.extractLsb'_append_extractLsb'_eq_extractLsb' (show 12 = 0 + 12 from rfl),
    BitVec.extractLsb'_eq_self]

/-- A word of format N with its must-be-zero bits 0 is its opcode followed by zeros. -/
theorem word_of_formatN {w : Word} {opc : BitVec 4} (hopc : opcField w = opc) (hmbz : mbzN w = 0) :
    opc ++ 0#12 = w := by
  have hw := opcField_append_rawField w
  rwa [hopc, show rawField w = 0 from hmbz] at hw

/-- Format R: the opcode, eight must-be-zero bits and ROWS. -/
theorem opcField_append_mbzR_append_rowsField (w : Word) : opcField w ++ mbzR w ++ rowsField w = w := by
  rw [opcField, mbzR, rowsField, BitVec.extractLsb'_append_extractLsb'_eq_extractLsb' (show 12 = 4 + 8 from rfl),
    BitVec.extractLsb'_append_extractLsb'_eq_extractLsb' (show 4 = 0 + 4 from rfl), BitVec.extractLsb'_eq_self]

/-- Format K: the opcode, four must-be-zero bits and CODE. -/
theorem opcField_append_mbzK_append_codeField (w : Word) : opcField w ++ mbzK w ++ codeField w = w := by
  rw [opcField, mbzK, codeField, BitVec.extractLsb'_append_extractLsb'_eq_extractLsb' (show 12 = 8 + 4 from rfl),
    BitVec.extractLsb'_append_extractLsb'_eq_extractLsb' (show 8 = 0 + 8 from rfl), BitVec.extractLsb'_eq_self]

/-- A code of the first row of digits is the row's bits and the digit (30_encoding R86). -/
theorem lowDigit_code (code : KeyCode) (h : code.extractLsb' 3 5 = 0b00110#5) :
    0b00110#5 ++ code.extractLsb' 0 3 = code := by
  rw [← h, BitVec.extractLsb'_append_extractLsb'_eq_extractLsb' (show 3 = 0 + 3 from rfl), BitVec.extractLsb'_eq_self]

/-- A code of the second row of digits is the row's bits and the digit less eight (30_encoding R86). -/
theorem highDigit_code (code : KeyCode) (h : code.extractLsb' 1 7 = 0b0011100#7) :
    0b0011100#7 ++ code.extractLsb' 0 1 = code := by
  rw [← h, BitVec.extractLsb'_append_extractLsb'_eq_extractLsb' (show 1 = 0 + 1 from rfl), BitVec.extractLsb'_eq_self]

/-! ### The decoder on the encoder's words (30_encoding R86, R87) -/

theorem decodeKey_low (am : ArrowMap) (d : BitVec 3) : decodeKey am (0b00110#5 ++ d) = .keyDigitLow d := by
  have hcode : (0b00110#5 ++ d).toNat = 0x30 + d.toNat := by revert d; decide
  rw [decodeKey_lowDigit am (0b00110#5 ++ d) d.toNat (by omega) hcode, BitVec.ofNat_toNat, BitVec.setWidth_eq]

theorem decodeKey_high (am : ArrowMap) (d : BitVec 1) : decodeKey am (0b0011100#7 ++ d) = .keyDigitHigh d := by
  have hcode : (0b0011100#7 ++ d).toNat = 0x30 + (8 + d.toNat) := by revert d; decide
  rw [decodeKey_highDigit am (0b0011100#7 ++ d) (8 + d.toNat) (by omega) (by omega) hcode, Nat.add_sub_cancel_left,
    BitVec.ofNat_toNat, BitVec.setWidth_eq]

/-- Under either assignment of the vertical pair the two codes are up and down (30_encoding R85). -/
theorem decodeKey_verticalCode (am : ArrowMap) :
    decodeKey am (verticalCode am.upIsA) = .keyUp ∧ decodeKey am (verticalCode (!am.upIsA)) = .keyDown := by
  rcases am with ⟨_ | _, leftIsC⟩
  · exact ⟨decodeKey_B _, decodeKey_A _⟩
  · exact ⟨decodeKey_A _, decodeKey_B _⟩

/-- Under either assignment of the horizontal pair the two codes are left and right (30_encoding R85). -/
theorem decodeKey_horizontalCode (am : ArrowMap) :
    decodeKey am (horizontalCode am.leftIsC) = .keyLeft ∧
    decodeKey am (horizontalCode (!am.leftIsC)) = .keyRight := by
  rcases am with ⟨upIsA, _ | _⟩
  · exact ⟨decodeKey_D _, decodeKey_C _⟩
  · exact ⟨decodeKey_C _, decodeKey_D _⟩

/-- The decoder reads back what the encoder wrote, instruction by instruction. -/
theorem decode_encode (am : ArrowMap) (i : Instr) (hwf : i.wellFormed = true) : decode am (encode am i) = .ok i := by
  cases i with
  | scanTick rows => exact decode_scanWord am rows
  | speedTick raw => exact decode_speedWord am raw
  | controlTick => simp [encode, decode, opcField, mbzN]
  | edge => simp [encode, decode, opcField, mbzN]
  | pop => simp [encode, decode, opcField, mbzN]
  | keyDigitLow d => rw [encode, decode_keyWord, decodeKey_low]
  | keyDigitHigh d => rw [encode, decode_keyWord, decodeKey_high]
  | keyUp => rw [encode, decode_keyWord, (decodeKey_verticalCode am).1]
  | keyDown => rw [encode, decode_keyWord, (decodeKey_verticalCode am).2]
  | keyLeft => rw [encode, decode_keyWord, (decodeKey_horizontalCode am).1]
  | keyRight => rw [encode, decode_keyWord, (decodeKey_horizontalCode am).2]
  | keyCommit => rw [encode, decode_keyWord, decodeKey_hash]
  | keyStartstop => rw [encode, decode_keyWord, decodeKey_star]
  | keyOther code =>
    have hcode : isSymbolCode code = false := Bool.not_eq_true' _ ▸ hwf
    rw [encode, decode_keyWord, decodeKey_of_not_symbol am code hcode]
  | reset => simp [encode, decode, opcField, mbzN]

/-! ### The words that decode (30_encoding R87, R89) -/

theorem requireZero_eq_ok_iff {n : Nat} (mbz : BitVec n) (i j : Instr) :
    requireZero mbz i = .ok j ↔ mbz = 0 ∧ i = j := by
  unfold requireZero
  split <;> simp_all

/-- A code that passes none of the tests of the sub-decode is none of the sixteen symbols. -/
theorem isSymbolCode_of_other (code : KeyCode) (hlow : ¬ code.extractLsb' 3 5 = 0b00110#5)
    (hhigh : ¬ code.extractLsb' 1 7 = 0b0011100#7)
    (hne : code ∉ [0x41#8, 0x42#8, 0x43#8, 0x44#8, 0x23#8, 0x2A#8]) : isSymbolCode code = false := by
  revert code
  decide

/-- The class of a code is a well-formed instruction whose word is the KEY word of the code. -/
theorem decodeKey_roundTrip (am : ArrowMap) (code : KeyCode) :
    (decodeKey am code).wellFormed = true ∧ encode am (decodeKey am code) = keyWord code := by
  unfold decodeKey
  split_ifs with hlow hhigh hA hmap hB hmap hC hmap hD hmap hhash hstar
  · exact ⟨rfl, congrArg keyWord (lowDigit_code code hlow)⟩
  · exact ⟨rfl, congrArg keyWord (highDigit_code code hhigh)⟩
  · exact ⟨rfl, by simp [encode, verticalCode, hmap, hA]⟩
  · exact ⟨rfl, by simp [encode, verticalCode, hmap, hA]⟩
  · exact ⟨rfl, by simp [encode, verticalCode, hmap, hB]⟩
  · exact ⟨rfl, by simp [encode, verticalCode, hmap, hB]⟩
  · exact ⟨rfl, by simp [encode, horizontalCode, hmap, hC]⟩
  · exact ⟨rfl, by simp [encode, horizontalCode, hmap, hC]⟩
  · exact ⟨rfl, by simp [encode, horizontalCode, hmap, hD]⟩
  · exact ⟨rfl, by simp [encode, horizontalCode, hmap, hD]⟩
  · exact ⟨rfl, congrArg keyWord hhash.symm⟩
  · exact ⟨rfl, congrArg keyWord hstar.symm⟩
  · refine ⟨?_, rfl⟩
    rw [Instr.wellFormed, isSymbolCode_of_other code hlow hhigh (by simp [hA, hB, hC, hD, hhash, hstar])]
    rfl

/-- A word that decodes is the word of the well-formed instruction it decodes to: its must-be-zero bits are 0 and its
other bits are its opcode's and its operand's. -/
theorem encode_of_decode (am : ArrowMap) (w : Word) (i : Instr) (h : decode am w = .ok i) :
    i.wellFormed = true ∧ encode am i = w := by
  unfold decode at h
  split_ifs at h with hscan hspeed hcontrol hedge hpop hkey hreset
  · obtain ⟨hmbz, rfl⟩ := (requireZero_eq_ok_iff _ _ _).mp h
    have hw := opcField_append_mbzR_append_rowsField w
    rw [hscan, hmbz] at hw
    exact ⟨rfl, hw⟩
  · obtain rfl := Except.ok.inj h
    have hw := opcField_append_rawField w
    rw [hspeed] at hw
    exact ⟨rfl, hw⟩
  · obtain ⟨hmbz, rfl⟩ := (requireZero_eq_ok_iff _ _ _).mp h
    exact ⟨rfl, word_of_formatN hcontrol hmbz⟩
  · obtain ⟨hmbz, rfl⟩ := (requireZero_eq_ok_iff _ _ _).mp h
    exact ⟨rfl, word_of_formatN hedge hmbz⟩
  · obtain ⟨hmbz, rfl⟩ := (requireZero_eq_ok_iff _ _ _).mp h
    exact ⟨rfl, word_of_formatN hpop hmbz⟩
  · obtain ⟨hmbz, rfl⟩ := (requireZero_eq_ok_iff _ _ _).mp h
    have hw := opcField_append_mbzK_append_codeField w
    rw [hkey, hmbz] at hw
    obtain ⟨hwf, henc⟩ := decodeKey_roundTrip am (codeField w)
    exact ⟨hwf, henc.trans hw⟩
  · obtain ⟨hmbz, rfl⟩ := (requireZero_eq_ok_iff _ _ _).mp h
    exact ⟨rfl, word_of_formatN hreset hmbz⟩

end Sys2Proof

namespace Sys2Proof.Machine

/-! ### Operations as text writes them (30_encoding R91) -/

/-- An operand in range, written as a number, is the operand of its field. -/
theorem ofNat_add_operand (base n k : Nat) (hk : k ≤ 16) (hn : n < 2 ^ k) :
    BitVec.ofNat 16 (base + n) = BitVec.ofNat 16 base + (BitVec.ofNat k n).setWidth 16 := by
  rw [BitVec.setWidth_ofNat_of_le_of_lt hk hn, BitVec.ofNat_add]

theorem word_scan_iff (n : Nat) (w : Word) :
    (AsmOp.scan n).word = some w ↔ n ≤ 15 ∧ 0x100#12 ++ BitVec.ofNat 4 n = w := by
  simp only [AsmOp.word, Option.ite_none_right_eq_some, Option.some.injEq]
  refine and_congr_right fun hn => ?_
  rw [ofNat_add_operand _ n 4 (by omega) (by omega), scanWord_eq_add]

theorem word_speed_iff (n : Nat) (w : Word) :
    (AsmOp.speed n).word = some w ↔ n ≤ 4095 ∧ 0x2#4 ++ BitVec.ofNat 12 n = w := by
  simp only [AsmOp.word, Option.ite_none_right_eq_some, Option.some.injEq]
  refine and_congr_right fun hn => ?_
  rw [ofNat_add_operand _ n 12 (by omega) (by omega), speedWord_eq_add]

theorem word_key_iff (n : Nat) (w : Word) :
    (AsmOp.key n).word = some w ↔ n ≤ 255 ∧ keyWord (BitVec.ofNat 8 n) = w := by
  simp only [AsmOp.word, Option.ite_none_right_eq_some, Option.some.injEq]
  refine and_congr_right fun hn => ?_
  rw [ofNat_add_operand _ n 8 (by omega) (by omega), keyWord_eq_add]

/-- An operand above its bound, and no other, is an assembly error. -/
theorem word_eq_none_iff (bound n : Nat) (w : Word) : (if n ≤ bound then some w else none) = none ↔ bound < n := by
  rw [ite_eq_right_iff, imp_iff_not (Option.some_ne_none w), Nat.not_le]

/-! ### The statements about words -/

/-- Settles O2: the encoder's word of each instruction has the fields the decoder reads. -/
theorem decodeOfEncodeIsTheInstruction : Obligations.DecodeOfEncodeIsTheInstruction := decode_encode

/-- Settles O3: the opcode, the must-be-zero bits and the operand are all the bits of a word. -/
theorem decodedWordIsItsEncoding : Obligations.DecodedWordIsItsEncoding := encode_of_decode

/-- Settles O7: an operand in range gives the encoder's word of the operation, whose decoding is known. -/
theorem assembledOperationsDecode : Obligations.AssembledOperationsDecode := by
  refine ⟨fun n => word_eq_none_iff 15 n _, fun n => word_eq_none_iff 4095 n _, fun n => word_eq_none_iff 255 n _,
    fun am n w hw => ?_, fun am n w hw => ?_, fun am n w hw => ?_⟩
  · obtain ⟨-, rfl⟩ := (word_scan_iff n w).mp hw
    exact decode_scanWord am _
  · obtain ⟨-, rfl⟩ := (word_speed_iff n w).mp hw
    exact decode_speedWord am _
  · obtain ⟨-, rfl⟩ := (word_key_iff n w).mp hw
    exact decode_keyWord am _

/-- Settles O1: each word is closed, and the decoder evaluates. -/
theorem wordsOfTheVectorsDecode : Obligations.WordsOfTheVectorsDecode := by
  unfold Obligations.WordsOfTheVectorsDecode
  decide

end Sys2Proof.Machine


/-!
What every operation leaves, unit by unit, said once for all fifteen; what a step leaves, by what its operation leaves;
and the statements that follow: completion, the parameters, the writers of each register, and what reaches the drive
(10_state R22 to R49, 20_memory R67, 60_exceptions R230).
-/

namespace Sys2Proof.Machine

/-! ### A run of enqueues (41_event_queue R134) -/

/-- The enqueues of a run write the queue and `lost` only. -/
theorem enqueueAll_frame (es : List KeyEvent) (s : State) :
    enqueueAll es s = { s with queue := (enqueueAll es s).queue, lost := (enqueueAll es s).lost } := by
  induction es generalizing s with
  | nil => rfl
  | cons e es ih => rw [enqueueAll_cons, ih, enqueue_frame]

/-- The producer leaves the output index alone (10_state R26). -/
@[simp] theorem enqueueAll_qout (es : List KeyEvent) (s : State) : (enqueueAll es s).queue.qout = s.queue.qout := by
  induction es generalizing s with
  | nil => rfl
  | cons e es ih => rw [enqueueAll_cons, ih, enqueue_qout]

@[simp] theorem enqueueAll_cfg (es : List KeyEvent) (s : State) : (enqueueAll es s).cfg = s.cfg := by
  rw [enqueueAll_frame]

/-! ### Each unit after an operation (10_state R22 to R43) -/

/-- The scan unit: SCAN_TICK and RESET write it. -/
def scanAfter (i : Instr) (u : ScanUnit) : ScanUnit :=
  match i with
  | .scanTick rows => scanUnitAfter rows u
  | .reset => { hist := Vector.replicate 16 0x00#8, scanCol := 0#2 }
  | _ => u

/-- The queue: SCAN_TICK, POP and RESET write it. -/
def queueAfter (i : Instr) (s : State) : QueueUnit :=
  match i with
  | .scanTick rows => (enqueueAll (scanEvents s.cfg rows s.scan) s).queue
  | .pop => qPop s.cfg s.queue
  | .reset => { qslot := List.replicate s.cfg.qcap 0#10, qin := 0, qout := 0 }
  | _ => s.queue

/-- The count of lost events: SCAN_TICK writes it. -/
def lostAfter (i : Instr) (s : State) : Nat :=
  match i with
  | .scanTick rows => (enqueueAll (scanEvents s.cfg rows s.scan) s).lost
  | _ => s.lost

/-- The result word: POP writes it. -/
def popResultAfter (i : Instr) (s : State) : Word :=
  match i with
  | .pop => qPopResult s.queue
  | _ => s.popResult

/-- The speed unit: SPEED_TICK and RESET write it. -/
def speedAfter (p : Params) (i : Instr) (u : SpeedUnit) : SpeedUnit :=
  match i with
  | .speedTick raw => speedUnitAfter p raw u
  | .reset => { spState := .below, elapsed := 0#32, rpm := 0#32,
                rpmHist := List.replicate p.boxcarSlots 0#32, rpmIdx := 0 }
  | _ => u

/-- The entry unit: the keys but start/stop, CONTROL_TICK and RESET write it. -/
def entryAfter (i : Instr) (u : EntryUnit) : EntryUnit :=
  match i with
  | .keyDigitLow d => writeDigit (lowDigit d) u
  | .keyDigitHigh d => writeDigit (highDigit d) u
  | .keyUp => rowUp u
  | .keyDown => rowDown u
  | .keyLeft => columnLeft u
  | .keyRight => columnRight u
  | .keyCommit => entryAfterCommit u
  | .controlTick => advanceCursor u
  | .reset => { curRow := 0#2, curCol := 0#3, digBuf := Vector.replicate 5 0#4, digitEntered := false }
  | _ => u

/-- The setpoints, with the entry unit the operation finds: COMMIT and RESET write them. -/
def setpointsAfter (i : Instr) (e : EntryUnit) (u : Setpoints) : Setpoints :=
  match i with
  | .keyCommit => storeSetpoint e.curRow (bufferValue e.digBuf) u
  | .reset => { spVolt := 0#17, spSpeed := 0#17, spMax := 0#17 }
  | _ => u

/-- The latch: EDGE, start/stop, CONTROL_TICK (`vth` alone) and RESET write it. -/
def latchAfter (p : Params) (i : Instr) (sp : Setpoints) (u : MotorLatch) : MotorLatch :=
  match i with
  | .edge => toggle u
  | .keyStartstop => toggle u
  | .controlTick => { u with vth := voltageTooHigh p sp.spVolt }
  | .reset => { running := false, pwmEnabled := false, vth := false }
  | _ => u

/-- The output stage: CONTROL_TICK and RESET write it. -/
def stageAfter (i : Instr) (s : State) : OutputStage :=
  match i with
  | .controlTick => outputAfterTick (voltageTooHigh s.cfg s.setpoints.spVolt) s
  | .reset => { dutyHB := 0#14, dutyBoost := 0#14, dutyBuck := 0#14, pwmOutEn := false }
  | _ => s.output

/-- The state an operation leaves: each unit as said above, everything else as it was. -/
def stateAfter (i : Instr) (s : State) : State :=
  { s with
    scan := scanAfter i s.scan
    queue := queueAfter i s
    speed := speedAfter s.cfg i s.speed
    entry := entryAfter i s.entry
    setpoints := setpointsAfter i s.entry s.setpoints
    latch := latchAfter s.cfg i s.setpoints s.latch
    output := stageAfter i s
    lost := lostAfter i s
    popResult := popResultAfter i s }

/-- Every operation completes, in that state. -/
theorem exec_eq_stateAfter (i : Instr) (s : State) : exec i s = .next (stateAfter i s) := by
  cases i with
  | scanTick rows =>
    rw [exec_scanTick, execScanTick_eq, enqueueAll_withScan, enqueueAll_frame]
    rfl
  | _ => rfl

theorem eq_stateAfter_of_exec {i : Instr} {s t : State} (h : exec i s = .next t) : t = stateAfter i s :=
  Host.Outcome.next.inj (h.symm.trans (exec_eq_stateAfter i s))

/-! ### Sequences of operations (20_memory R67) -/

/-- The state a sequence of operations leaves. -/
def runAfter (is : List Instr) (s : State) : State := is.foldl (fun x i => stateAfter i x) s

@[simp] theorem runAfter_nil (s : State) : runAfter [] s = s := rfl
@[simp] theorem runAfter_cons (i : Instr) (is : List Instr) (s : State) :
    runAfter (i :: is) s = runAfter is (stateAfter i s) := rfl

/-- Every sequence completes, each operation in the state the one before it left. -/
theorem execAll_eq_runAfter (is : List Instr) (s : State) : execAll is s = .next (runAfter is s) := by
  induction is generalizing s with
  | nil => rfl
  | cons i is ih =>
    simp only [execAll, exec_eq_stateAfter]
    exact ih (stateAfter i s)

/-! ### Steps (00_scope R6, 20_memory R67) -/

/-- A step on a word that decodes is the operation, with the issue taken before and settled after. -/
theorem step_of_decoded {s t : State} {i : Instr} (hi : decode s.cfg.arrowMap s.presentedWord = .ok i)
    (ht : exec i s.takeIssue = .next t) : step s = .next (settleIssue s.nextIssue t) := by
  rw [step, hi]
  simp only [ht]

/-- A step on a word that spells no operation is the mark. -/
theorem step_of_refused {s : State} {why : DecodeReject}
    (hwhy : decode s.cfg.arrowMap s.presentedWord = .error why) :
    step s = .next (settleIssue s.nextIssue (markRefused s.takeIssue)) := by
  rw [step, hwhy]

/-- What every operation keeps, and what does not speak of the `refused` mark or of the model's own fields for the
agents, every step keeps. -/
theorem step_keeps {P : State → Prop} (hexec : ∀ i u v, P u → exec i u = .next v → P v)
    (hmodel : ∀ (u : State) (refused : Bool) (consumer : Consumer) (inbox : List Issue) (envTime : Nat), P u →
      P { u with refused := refused, consumer := consumer, inbox := inbox, envTime := envTime })
    {s t : State} (hs : P s) (h : step s = .next t) : P t := by
  have htake : P s.takeIssue := by
    rw [takeIssue_frame]
    exact hmodel s _ _ _ _ hs
  have hsettle : ∀ u, P u → P (settleIssue s.nextIssue u) := by
    intro u hu
    rw [settleIssue_frame]
    exact hmodel u _ _ _ _ hu
  rcases step_cases s t h with ⟨why, -, rfl⟩ | ⟨i, u, -, hu, rfl⟩
  · exact hsettle _ (hmodel s.takeIssue true _ _ _ htake)
  · exact hsettle u (hexec i _ u htake hu)

/-! ### The writers of each register (10_state R22 to R49) -/

section writers
variable {i : Instr}

theorem writer_of_scan {u : ScanUnit} (h : scanAfter i u ≠ u) : i = .reset ∨ ∃ rows, i = .scanTick rows := by
  cases i with
  | reset => exact .inl rfl
  | scanTick rows => exact .inr ⟨rows, rfl⟩
  | _ => exact absurd rfl h

theorem writer_of_qslot {s : State} (h : (queueAfter i s).qslot ≠ s.queue.qslot) :
    i = .reset ∨ i = .pop ∨ ∃ rows, i = .scanTick rows := by
  cases i with
  | reset => exact .inl rfl
  | pop => exact .inr (.inl rfl)
  | scanTick rows => exact .inr (.inr ⟨rows, rfl⟩)
  | _ => exact absurd rfl h

theorem writer_of_qin {s : State} (h : (queueAfter i s).qin ≠ s.queue.qin) :
    i = .reset ∨ ∃ rows, i = .scanTick rows := by
  cases i with
  | reset => exact .inl rfl
  | scanTick rows => exact .inr ⟨rows, rfl⟩
  | pop => exact absurd (qPop_qin s.cfg s.queue) h
  | _ => exact absurd rfl h

theorem writer_of_qout {s : State} (h : (queueAfter i s).qout ≠ s.queue.qout) : i = .reset ∨ i = .pop := by
  cases i with
  | reset => exact .inl rfl
  | pop => exact .inr rfl
  | scanTick rows => exact absurd (enqueueAll_qout _ s) h
  | _ => exact absurd rfl h

theorem writer_of_speed {p : Params} {u : SpeedUnit} (h : speedAfter p i u ≠ u) :
    i = .reset ∨ ∃ raw, i = .speedTick raw := by
  cases i with
  | reset => exact .inl rfl
  | speedTick raw => exact .inr ⟨raw, rfl⟩
  | _ => exact absurd rfl h

/-- Only RESET and COMMIT change a setpoint, and COMMIT the one of its row (R36 to R38). -/
theorem setpointsAfter_cases (i : Instr) (e : EntryUnit) (u : Setpoints) :
    i = .reset ∨
    (i = .keyCommit ∧ e.curRow = 0#2 ∧ ∃ v, setpointsAfter i e u = { u with spVolt := v }) ∨
    (i = .keyCommit ∧ e.curRow = 1#2 ∧ ∃ v, setpointsAfter i e u = { u with spSpeed := v }) ∨
    (i = .keyCommit ∧ e.curRow = 2#2 ∧ ∃ v, setpointsAfter i e u = { u with spMax := v }) ∨
    setpointsAfter i e u = u := by
  cases i with
  | reset => exact .inl rfl
  | keyCommit =>
    rcases storeSetpoint_cases e.curRow (bufferValue e.digBuf) u with ⟨hrow, h⟩ | ⟨hrow, h⟩ | ⟨hrow, h⟩ | ⟨-, h⟩
    · exact .inr (.inl ⟨rfl, hrow, _, h⟩)
    · exact .inr (.inr (.inl ⟨rfl, hrow, _, h⟩))
    · exact .inr (.inr (.inr (.inl ⟨rfl, hrow, _, h⟩)))
    · exact .inr (.inr (.inr (.inr h)))
  | _ => exact .inr (.inr (.inr (.inr rfl)))

theorem writer_of_setpoints {e : EntryUnit} {u : Setpoints} :
    ((setpointsAfter i e u).spVolt ≠ u.spVolt → i = .reset ∨ (i = .keyCommit ∧ e.curRow = 0#2)) ∧
    ((setpointsAfter i e u).spSpeed ≠ u.spSpeed → i = .reset ∨ (i = .keyCommit ∧ e.curRow = 1#2)) ∧
    ((setpointsAfter i e u).spMax ≠ u.spMax → i = .reset ∨ (i = .keyCommit ∧ e.curRow = 2#2)) := by
  rcases setpointsAfter_cases i e u with
    hreset | ⟨hi, hrow, v, h⟩ | ⟨hi, hrow, v, h⟩ | ⟨hi, hrow, v, h⟩ | h
  · exact ⟨fun _ => .inl hreset, fun _ => .inl hreset, fun _ => .inl hreset⟩
  all_goals rw [h]
  · exact ⟨fun _ => .inr ⟨hi, hrow⟩, absurd rfl, absurd rfl⟩
  · exact ⟨absurd rfl, fun _ => .inr ⟨hi, hrow⟩, absurd rfl⟩
  · exact ⟨absurd rfl, absurd rfl, fun _ => .inr ⟨hi, hrow⟩⟩
  · exact ⟨absurd rfl, absurd rfl, absurd rfl⟩

theorem writer_of_running {p : Params} {sp : Setpoints} {u : MotorLatch}
    (h : (latchAfter p i sp u).running ≠ u.running ∨ (latchAfter p i sp u).pwmEnabled ≠ u.pwmEnabled) :
    i = .reset ∨ i = .edge ∨ i = .keyStartstop := by
  cases i with
  | reset => exact .inl rfl
  | edge => exact .inr (.inl rfl)
  | keyStartstop => exact .inr (.inr rfl)
  | _ => exact h.elim (absurd rfl) (absurd rfl)

theorem writer_of_vth {p : Params} {sp : Setpoints} {u : MotorLatch} (h : (latchAfter p i sp u).vth ≠ u.vth) :
    i = .reset ∨ i = .controlTick := by
  cases i with
  | reset => exact .inl rfl
  | controlTick => exact .inr rfl
  | edge => exact absurd (toggle_vth u) h
  | keyStartstop => exact absurd (toggle_vth u) h
  | _ => exact absurd rfl h

theorem writer_of_output {s : State} (h : stageAfter i s ≠ s.output) : i = .reset ∨ i = .controlTick := by
  cases i with
  | reset => exact .inl rfl
  | controlTick => exact .inr rfl
  | _ => exact absurd rfl h

theorem writer_of_digBuf {u : EntryUnit} (h : (entryAfter i u).digBuf ≠ u.digBuf) :
    i = .reset ∨ i = .keyCommit ∨ (∃ d, i = .keyDigitLow d) ∨ ∃ d, i = .keyDigitHigh d := by
  cases i with
  | reset => exact .inl rfl
  | keyCommit => exact .inr (.inl rfl)
  | keyDigitLow d => exact .inr (.inr (.inl ⟨d, rfl⟩))
  | keyDigitHigh d => exact .inr (.inr (.inr ⟨d, rfl⟩))
  | controlTick => exact absurd (advanceCursor_digBuf u) h
  | _ => exact absurd rfl h

theorem writer_of_curRow {u : EntryUnit} (h : (entryAfter i u).curRow ≠ u.curRow) :
    i = .reset ∨ i = .keyCommit ∨ i = .keyUp ∨ i = .keyDown := by
  cases i with
  | reset => exact .inl rfl
  | keyCommit => exact .inr (.inl rfl)
  | keyUp => exact .inr (.inr (.inl rfl))
  | keyDown => exact .inr (.inr (.inr rfl))
  | controlTick => exact absurd (advanceCursor_curRow u) h
  | _ => exact absurd rfl h

theorem writer_of_curCol {u : EntryUnit} (h : (entryAfter i u).curCol ≠ u.curCol) :
    i = .reset ∨ i = .keyCommit ∨ i = .keyLeft ∨ i = .keyRight ∨ i = .controlTick := by
  cases i with
  | reset => exact .inl rfl
  | keyCommit => exact .inr (.inl rfl)
  | keyLeft => exact .inr (.inr (.inl rfl))
  | keyRight => exact .inr (.inr (.inr (.inl rfl)))
  | controlTick => exact .inr (.inr (.inr (.inr rfl)))
  | _ => exact absurd rfl h

theorem writer_of_digitEntered {u : EntryUnit} (h : (entryAfter i u).digitEntered ≠ u.digitEntered) :
    i = .reset ∨ i = .keyCommit ∨ i = .controlTick ∨ (∃ d, i = .keyDigitLow d) ∨ ∃ d, i = .keyDigitHigh d := by
  cases i with
  | reset => exact .inl rfl
  | keyCommit => exact .inr (.inl rfl)
  | controlTick => exact .inr (.inr (.inl rfl))
  | keyDigitLow d => exact .inr (.inr (.inr (.inl ⟨d, rfl⟩)))
  | keyDigitHigh d => exact .inr (.inr (.inr (.inr ⟨d, rfl⟩)))
  | _ => exact absurd rfl h

theorem writer_of_lost {s : State} (h : lostAfter i s ≠ s.lost) : ∃ rows, i = .scanTick rows := by
  cases i with
  | scanTick rows => exact ⟨rows, rfl⟩
  | _ => exact absurd rfl h

end writers

/-- What an operation leaves in the output stage it reads off the drive registers alone. -/
theorem stageAfter_congr (i : Instr) {s s' : State} (h : s.SameDrive s') : stageAfter i s = stageAfter i s' := by
  obtain ⟨hcfg, -, hsetpoints, hlatch, hout⟩ := h
  cases i with
  | controlTick => simp only [stageAfter, outputAfterTick, hcfg, hsetpoints, hlatch]
  | reset => rfl
  | _ => exact hout

/-- Only `Toggle()` sets the latch, and it found `vth` = 0 (44_duty_controller R209 (d)). -/
theorem latchAfter_set {p : Params} {i : Instr} {sp : Setpoints} {u : MotorLatch} (hclear : u.pwmEnabled = false)
    (hset : (latchAfter p i sp u).pwmEnabled = true) : u.vth = false ∧ (i = .edge ∨ i = .keyStartstop) := by
  have htoggle (h : (toggle u).pwmEnabled = true) : u.vth = false := by
    rcases toggle_cases u with ⟨-, heq⟩ | ⟨-, -, hvth, -⟩ | ⟨-, -, -, heq⟩
    · rw [heq] at h
      exact nomatch h
    · exact hvth
    · rw [heq, hclear] at h
      exact nomatch h
  cases i with
  | edge => exact ⟨htoggle hset, .inl rfl⟩
  | keyStartstop => exact ⟨htoggle hset, .inr rfl⟩
  | reset => exact nomatch hset
  | _ => exact nomatch hclear.symm.trans hset

/-! ### The statements about operations in general -/

/-- Settles O8: the decoded case of `step`. -/
theorem stepRunsTheDecodedInstruction : Obligations.StepRunsTheDecodedInstruction :=
  fun _ _ _ hdecode hexec => step_of_decoded hdecode hexec

/-- Settles O9: the scheduled word is the one presented, and a word at the port settles nothing. -/
theorem scheduledWordRunsNext : Obligations.ScheduledWordRunsNext := by
  intro s t w i hdecode hexec
  have hword : BitVec.ofNat 16 (w.toNat % 2 ^ 16) = w := by
    rw [Nat.mod_eq_of_lt w.isLt, BitVec.ofNat_toNat, BitVec.setWidth_eq]
  have hport : (s.withFetchWord 16 w.toNat).presentedWord = w :=
    (presentedWord_of_port (rest := s.inbox) rfl).trans hword
  exact step_of_decoded (hport.symm ▸ hdecode) hexec

/-- Settles O10: an operation leaves `stateAfter`, and a step either performs one or marks the word. -/
theorem noOperationStopsTheBlock : Obligations.NoOperationStopsTheBlock := by
  refine ⟨fun i s => ⟨_, exec_eq_stateAfter i s⟩, fun s => ?_⟩
  cases hdecode : decode s.cfg.arrowMap s.presentedWord with
  | error why => exact ⟨_, step_of_refused hdecode⟩
  | ok i => exact ⟨_, step_of_decoded hdecode (exec_eq_stateAfter i _)⟩

/-- Settles O11: the consumer's word is POP or KEY of its code, only the issuing agent settles, and no operation
writes the consumer's place. -/
theorem consumerPopsThenDispatchesPresses : Obligations.ConsumerPopsThenDispatchesPresses := by
  refine ⟨fun s t hissue hpoll hpop => ?_, fun s t code hissue hdisp hkey => ?_, fun s t hissue hstep => ?_⟩
  · have hword : decode s.cfg.arrowMap s.presentedWord = .ok .pop := by
      rw [State.presentedWord, hissue, hpoll]
      exact decode_encode _ .pop rfl
    have hplace : t.consumer = .polling := by
      rw [eq_stateAfter_of_exec hpop]
      exact (takeIssue_consumer s).trans hpoll
    rw [step_of_decoded hword hpop, hissue, settleIssue, hplace]
    rfl
  · have hword : decode s.cfg.arrowMap s.presentedWord = .ok (decodeKey s.cfg.arrowMap code) := by
      rw [State.presentedWord, hissue, hdisp]
      exact decode_keyWord _ code
    have hplace : t.consumer = .dispatching code := by
      rw [eq_stateAfter_of_exec hkey]
      exact (takeIssue_consumer s).trans hdisp
    rw [step_of_decoded hword hkey, hissue, settleIssue, hplace]
    rfl
  · have hsettle (u : State) : settleIssue s.nextIssue u = u := by
      cases hcase : s.nextIssue with
      | consumer => exact absurd hcase hissue
      | _ => rfl
    rcases step_cases s t hstep with ⟨why, -, rfl⟩ | ⟨i, u, -, hexec, rfl⟩
    · rw [hsettle, markRefused_consumer, takeIssue_consumer]
    · rw [hsettle, eq_stateAfter_of_exec hexec]
      exact takeIssue_consumer s

/-- Settles O13: no operation writes the parameters. -/
theorem parametersAreFixedForARun : Obligations.ParametersAreFixedForARun := by
  intro s t h
  refine step_keeps (P := fun u => u.cfg = s.cfg) (fun i u v hu hexec => ?_) (fun _ _ _ _ _ hu => hu) rfl h
  rw [eq_stateAfter_of_exec hexec]
  exact hu

/-- Settles O14, register by register. -/
theorem registersHaveOnlyTheirWriters : Obligations.RegistersHaveOnlyTheirWriters := by
  intro i s t h
  obtain rfl := eq_stateAfter_of_exec h
  obtain ⟨hvolt, hspeed, hmax⟩ := writer_of_setpoints (i := i) (e := s.entry) (u := s.setpoints)
  exact ⟨writer_of_scan, writer_of_qslot, writer_of_qin, writer_of_qout, writer_of_speed, hvolt, hspeed, hmax,
    writer_of_running, writer_of_vth, writer_of_output, writer_of_digBuf, writer_of_curRow, writer_of_curCol,
    writer_of_digitEntered, writer_of_lost, rfl⟩

/-- Settles O40: an operation that sets the latch is `Toggle()`, whose two callers have these words. -/
theorem latchIsNeverSetWhileTooHigh : Obligations.LatchIsNeverSetWhileTooHigh := by
  intro s t h hclear hset
  rcases step_cases s t h with ⟨why, -, rfl⟩ | ⟨i, u, hdecode, hexec, rfl⟩
  · rw [settleIssue_latch, markRefused_latch, takeIssue_latch, hclear] at hset
    exact nomatch hset
  · rw [settleIssue_latch, eq_stateAfter_of_exec hexec] at hset
    rw [← takeIssue_latch] at hclear
    obtain ⟨hvth, hi⟩ := latchAfter_set hclear hset
    obtain ⟨-, hword⟩ := encode_of_decode _ _ _ hdecode
    rw [takeIssue_latch] at hvth
    rw [← hword]
    refine ⟨hvth, hi.imp ?_ ?_⟩ <;> rintro rfl <;> rfl

/-- Settles O45: each register of the drive is left with a value computed from the registers of the drive. -/
theorem speedAndQueueDoNotReachTheDrive : Obligations.SpeedAndQueueDoNotReachTheDrive := by
  intro i s s' t t' hsame h h'
  obtain rfl := eq_stateAfter_of_exec h
  obtain rfl := eq_stateAfter_of_exec h'
  have hstage := stageAfter_congr i hsame
  obtain ⟨hcfg, hentry, hsetpoints, hlatch, -⟩ := hsame
  refine ⟨hcfg, ?_, ?_, ?_, hstage⟩ <;> simp only [stateAfter, hcfg, hentry, hsetpoints, hlatch]

end Sys2Proof.Machine


/-!
The ranges of the registers unit by unit: RESET establishes them and every operation keeps them; and the statements
about power-on and the ranges (10_state R52, 70_reset R260 to R262).
-/

namespace Sys2Proof.Machine

/-! ### The entry unit (10_state R32 to R35) -/

/-- The cursor is on the grid and every slot holds a decimal digit. -/
def EntryUnit.InRange (u : EntryUnit) : Prop :=
  u.curRow.toNat ≤ 2 ∧ u.curCol.toNat ≤ 4 ∧ ∀ j : Fin 5, (u.digBuf.get j).toNat ≤ 9

theorem clearedBuffer_get_le (j : Fin 5) : ((Vector.replicate 5 0#4).get j).toNat ≤ 9 := by
  simp [Vector.get_eq_getElem]

theorem writeDigit_inRange {d : BitVec 4} {u : EntryUnit} (hd : d.toNat ≤ 9) (hu : u.InRange) :
    (writeDigit d u).InRange := by
  obtain ⟨hrow, hcol, hdigits⟩ := hu
  refine ⟨hrow, hcol, fun j => ?_⟩
  rw [writeDigit_get]
  split
  · exact hd
  · exact hdigits j

theorem advanceCursor_inRange {u : EntryUnit} (hu : u.InRange) : (advanceCursor u).InRange := by
  obtain ⟨hrow, hcol, hdigits⟩ := hu
  refine ⟨?_, ?_, ?_⟩
  · rwa [advanceCursor_curRow]
  · rw [advanceCursor_curCol_toNat]
    split <;> omega
  · rwa [advanceCursor_digBuf]

/-- Every operation keeps the cursor on the grid and the digits decimal, key by key. -/
theorem entryAfter_inRange (i : Instr) {u : EntryUnit} (hu : u.InRange) : (entryAfter i u).InRange := by
  have ⟨hrow, hcol, hdigits⟩ := hu
  cases i with
  | keyDigitLow d => exact writeDigit_inRange (by rw [lowDigit_toNat]; omega) hu
  | keyDigitHigh d => exact writeDigit_inRange (by rw [highDigit_toNat]; omega) hu
  | keyUp => exact ⟨(rowUp_curRow_toNat u).trans_le (by omega), hcol, hdigits⟩
  | keyDown => exact ⟨(rowDown_curRow_toNat u).trans_le (by omega), hcol, hdigits⟩
  | keyLeft => exact ⟨hrow, (columnLeft_curCol_toNat u).trans_le (by omega), hdigits⟩
  | keyRight => exact ⟨hrow, (columnRight_curCol_toNat u).trans_le (by omega), hdigits⟩
  | keyCommit =>
    exact ⟨(entryAfterCommit_curRow_toNat u).trans_le (by omega), Nat.zero_le 4, clearedBuffer_get_le⟩
  | controlTick => exact advanceCursor_inRange hu
  | reset => exact ⟨Nat.zero_le 2, Nat.zero_le 4, clearedBuffer_get_le⟩
  | _ => exact hu

/-! ### The setpoints (10_state R36 to R38) -/

/-- Every setpoint is a five-digit number. -/
def Setpoints.InRange (u : Setpoints) : Prop :=
  u.spVolt.toNat ≤ 99999 ∧ u.spSpeed.toNat ≤ 99999 ∧ u.spMax.toNat ≤ 99999

theorem storeSetpoint_inRange (row : BitVec 2) {n : Nat} {u : Setpoints} (hn : n ≤ 99999) (hu : u.InRange) :
    (storeSetpoint row n u).InRange := by
  obtain ⟨hvolt, hspeed, hmax⟩ := hu
  obtain ⟨hvolt', hspeed', hmax'⟩ := storeSetpoint_toNat row n u hn
  unfold Setpoints.InRange
  rw [hvolt', hspeed', hmax']
  refine ⟨?_, ?_, ?_⟩ <;> split <;> assumption

theorem setpointsAfter_inRange (i : Instr) {e : EntryUnit} {u : Setpoints} (he : e.InRange) (hu : u.InRange) :
    (setpointsAfter i e u).InRange := by
  obtain ⟨-, -, hdigits⟩ := he
  cases i with
  | keyCommit => exact storeSetpoint_inRange _ (bufferValue_le _ hdigits) hu
  | reset => exact ⟨Nat.zero_le _, Nat.zero_le _, Nat.zero_le _⟩
  | _ => exact hu

/-! ### The latch (10_state R39, R40) -/

theorem toggle_running_eq {u : MotorLatch} (hu : u.running = u.pwmEnabled) :
    (toggle u).running = (toggle u).pwmEnabled := by
  rcases toggle_cases u with ⟨-, h⟩ | ⟨-, -, -, h⟩ | ⟨-, -, -, h⟩ <;> rw [h]
  exact hu

/-- The two bits of the latch are written together (R40). -/
theorem latchAfter_running_eq (p : Params) (i : Instr) (sp : Setpoints) {u : MotorLatch}
    (hu : u.running = u.pwmEnabled) : (latchAfter p i sp u).running = (latchAfter p i sp u).pwmEnabled := by
  cases i with
  | edge => exact toggle_running_eq hu
  | keyStartstop => exact toggle_running_eq hu
  | reset => rfl
  | _ => exact hu

/-! ### The output stage (10_state R42, R43) -/

/-- The duties are at most 100.00 %, and 0 while the stage is disabled. -/
def OutputStage.InRange (o : OutputStage) : Prop :=
  o.dutyHB.toNat ≤ 10000 ∧ o.dutyBoost.toNat ≤ 10000 ∧ o.dutyBuck.toNat ≤ 10000 ∧
  (o.pwmOutEn = false → o.dutyHB = 0#14 ∧ o.dutyBoost = 0#14 ∧ o.dutyBuck = 0#14)

theorem disabledStage_inRange :
    OutputStage.InRange { dutyHB := 0#14, dutyBoost := 0#14, dutyBuck := 0#14, pwmOutEn := false } :=
  ⟨Nat.zero_le _, Nat.zero_le _, Nat.zero_le _, fun _ => ⟨rfl, rfl, rfl⟩⟩

/-- The mapped duties are in range for every setpoint and every choice of parameters. -/
theorem outputAfterTick_inRange (vth : Bool) (s : State) : (outputAfterTick vth s).InRange := by
  cases hen : s.latch.pwmEnabled with
  | false =>
    rw [outputAfterTick_of_disabled vth s hen]
    exact disabledStage_inRange
  | true =>
    obtain ⟨hhb, hboost, hbuck⟩ := outputAfterTick_toNat_of_enabled vth s hen
    refine ⟨hhb.trans_le (hBridgeDuty_le _ _ _), hboost.trans_le (boostDuty_le _ _), hbuck.trans_le (buckDuty_le _ _),
      fun hoff => ?_⟩
    rw [outputAfterTick_pwmOutEn, hen] at hoff
    exact nomatch hoff

theorem stageAfter_inRange (i : Instr) {s : State} (hs : s.output.InRange) : (stageAfter i s).InRange := by
  cases i with
  | controlTick => exact outputAfterTick_inRange _ s
  | reset => exact disabledStage_inRange
  | _ => exact hs

/-! ### The empty slots (10_state R25) -/

/-- A slot that holds no unread event is all zero. -/
def QueueUnit.EmptySlotsZero (q : QueueUnit) : Prop := ∀ v ∈ q.qslot, slotValid v = false → v = 0#10

theorem emptySlotsZero_iff_slotAt (q : QueueUnit) :
    q.EmptySlotsZero ↔ ∀ j < q.qslot.length, slotValid (slotAt q j) = false → slotAt q j = 0#10 := by
  rw [QueueUnit.EmptySlotsZero, List.forall_mem_iff_forall_getElem]
  refine forall₂_congr fun j hj => ?_
  rw [slotAt, List.getD_eq_getElem _ _ hj]

/-- A write of an event or of zero leaves the empty slots zero. -/
theorem emptySlotsZero_set {q : QueueUnit} (hq : q.EmptySlotsZero) {q' : QueueUnit} {i : Nat} {v : Slot}
    (hslots : q'.qslot = q.qslot.set i v) (hv : slotValid v = false → v = 0#10) : q'.EmptySlotsZero := by
  intro w hw hempty
  rw [hslots] at hw
  rcases List.mem_or_eq_of_mem_set hw with hold | rfl
  · exact hq w hold hempty
  · exact hv hempty

theorem qPush_emptySlotsZero (p : Params) (e : KeyEvent) {q : QueueUnit} (hq : q.EmptySlotsZero) :
    (qPush p e q).EmptySlotsZero :=
  emptySlotsZero_set hq (qPush_qslot p e q) fun h => nomatch (slotValid_slot e).symm.trans h

theorem enqueue_emptySlotsZero (e : KeyEvent) {s : State} (hs : s.queue.EmptySlotsZero) :
    (enqueue e s).queue.EmptySlotsZero := by
  rcases enqueue_cases e s with ⟨-, h⟩ | ⟨-, -, h⟩ | ⟨-, -, h⟩ <;> rw [h]
  · exact qPush_emptySlotsZero s.cfg e hs
  · exact hs
  · exact qPush_emptySlotsZero s.cfg e hs

theorem enqueueAll_emptySlotsZero (es : List KeyEvent) {s : State} (hs : s.queue.EmptySlotsZero) :
    (enqueueAll es s).queue.EmptySlotsZero := by
  induction es generalizing s with
  | nil => exact hs
  | cons e es ih => exact ih (enqueue_emptySlotsZero e hs)

theorem qPop_emptySlotsZero (p : Params) {q : QueueUnit} (hq : q.EmptySlotsZero) : (qPop p q).EmptySlotsZero := by
  rcases qPop_cases p q with ⟨-, h, -⟩ | ⟨-, h, -⟩ <;> rw [h]
  · exact hq
  · exact emptySlotsZero_set hq rfl fun _ => rfl

theorem queueAfter_emptySlotsZero (i : Instr) {s : State} (hs : s.queue.EmptySlotsZero) :
    (queueAfter i s).EmptySlotsZero := by
  cases i with
  | scanTick rows => exact enqueueAll_emptySlotsZero _ hs
  | pop => exact qPop_emptySlotsZero s.cfg hs
  | reset => exact fun v hv _ => List.eq_of_mem_replicate hv
  | _ => exact hs

/-! ### The whole state (10_state R52) -/

/-- The ranges of the state are the ranges of its units. -/
theorem inRange_iff_units (s : State) :
    s.InRange ↔
      s.latch.running = s.latch.pwmEnabled ∧ s.entry.InRange ∧ s.setpoints.InRange ∧ s.output.InRange ∧
      s.queue.EmptySlotsZero := by
  rw [emptySlotsZero_iff_slotAt]
  unfold EntryUnit.InRange Setpoints.InRange OutputStage.InRange
  simp only [and_assoc]

theorem stateAfter_inRange (i : Instr) {s : State} (hs : s.InRange) : (stateAfter i s).InRange := by
  rw [inRange_iff_units] at hs ⊢
  obtain ⟨hlatch, hentry, hsetpoints, houtput, hslots⟩ := hs
  exact ⟨latchAfter_running_eq s.cfg i s.setpoints hlatch, entryAfter_inRange i hentry,
    setpointsAfter_inRange i hentry hsetpoints, stageAfter_inRange i houtput, queueAfter_emptySlotsZero i hslots⟩

/-- The power-on state is the state RESET leaves of it (70_reset R260). -/
theorem initial_eq_stateAfter_reset (p : Params) : State.initial p = stateAfter .reset (State.initial p) := rfl

/-- RESET establishes the ranges from every state. -/
theorem stateAfter_reset_inRange (s : State) : (stateAfter .reset s).InRange := by
  rw [inRange_iff_units]
  exact ⟨rfl, ⟨Nat.zero_le 2, Nat.zero_le 4, clearedBuffer_get_le⟩,
    ⟨Nat.zero_le _, Nat.zero_le _, Nat.zero_le _⟩, disabledStage_inRange, fun v hv _ => List.eq_of_mem_replicate hv⟩

/-! ### The statements about power-on and the ranges -/

/-- Settles O49: each unit keeps its ranges under every operation, and the agents write none of them. -/
theorem rangesAreKeptByEveryStep : Obligations.RangesAreKeptByEveryStep := by
  intro s t hs h
  refine step_keeps (P := State.InRange) (fun i u v hu hexec => ?_) (fun _ _ _ _ _ hu => hu) hs h
  rw [eq_stateAfter_of_exec hexec]
  exact stateAfter_inRange i hu

/-- Settles O46: both clauses are the meaning of RESET evaluated. -/
theorem resetWritesEveryRegister : Obligations.ResetWritesEveryRegister :=
  ⟨fun _ => rfl, rfl⟩

/-- Settles O47: at power-on the voltage setpoint is 0, the latch is clear and no digit is pending. -/
theorem controlTickKeepsThePowerOnState : Obligations.ControlTickKeepsThePowerOnState := by
  intro p _
  have hvth : voltageTooHigh p 0#17 = false := if_pos (Nat.zero_le _)
  have houtput := outputAfterTick_of_disabled (voltageTooHigh p 0#17) (State.initial p) rfl
  rw [exec_controlTick]
  simp only [State.initial] at houtput ⊢
  rw [houtput, hvth]
  rfl

end Sys2Proof.Machine


/-!
The event queue as a ring: the shape and the alignment of the indices, what a push and a pop do to the slots counted
from the output index, and what they do to an aligned queue (41_event_queue R132, R133, R137).
-/

namespace Sys2Proof.Machine

/-! ### The ring of slots (41_event_queue R131, R137) -/

/-- The queue's part of `State.Shaped` (10_state R25, R26). -/
def QueueUnit.Fits (p : Params) (q : QueueUnit) : Prop :=
  q.qslot.length = p.qcap ∧ q.qin < p.qcap ∧ q.qout < p.qcap

/-- The j-th slot from the output index on. -/
def ringSlot (p : Params) (q : QueueUnit) (j : Nat) : Slot := slotAt q ((q.qout + j) % p.qcap)

/-- The first half of INV_Q: the input index is behind the unread events (41_event_queue R137). -/
def QueueUnit.IndicesAligned (p : Params) (q : QueueUnit) : Prop := q.qin = (q.qout + validCount q) % p.qcap

/-- INV_Q of a queue: the indices are aligned, and the unread events are the first ones of the ring. -/
def QueueUnit.Aligned (p : Params) (q : QueueUnit) : Prop :=
  q.IndicesAligned p ∧ ∀ j < p.qcap, slotValid (ringSlot p q j) = decide (j < validCount q)

theorem queueAligned_iff (s : State) : s.QueueAligned ↔ s.queue.Aligned s.cfg := Iff.rfl

theorem queueContents_eq_map_ringSlot (p : Params) (q : QueueUnit) :
    queueContents p q = (List.range (validCount q)).map (ringSlot p q) := rfl

@[simp] theorem length_queueContents (p : Params) (q : QueueUnit) : (queueContents p q).length = validCount q := by
  simp [queueContents]

/-- Two steps of less than a turn around the ring end in the same place only if they are the same. -/
theorem ring_index_eq_iff {n j k : Nat} (a : Nat) (hj : j < n) (hk : k < n) : (a + j) % n = (a + k) % n ↔ j = k := by
  refine ⟨fun h => ?_, fun h => h ▸ rfl⟩
  have hmod : j % n = k % n := Nat.ModEq.add_left_cancel' a h
  rwa [Nat.mod_eq_of_lt hj, Nat.mod_eq_of_lt hk] at hmod

/-- An index moves on with another one as it was before the move. -/
theorem succ_mod_eq_iff {n a : Nat} (b : Nat) (ha : a < n) : (a + 1) % n = (b + 1) % n ↔ a = b % n := by
  constructor
  · intro h
    have hmod : a % n = b % n := Nat.ModEq.add_right_cancel' 1 h
    rwa [Nat.mod_eq_of_lt ha] at hmod
  · intro h
    rw [h, Nat.mod_add_mod]

/-! ### One write to a slot -/

section write
variable {q q' : QueueUnit} {i : Nat} {v : Slot} (hset : q'.qslot = q.qslot.set i v) (hi : i < q.qslot.length)
include hset hi

theorem slotAt_of_set (j : Nat) : slotAt q' j = if i = j then v else slotAt q j := by
  rw [← slotAt_set q i j v hi, slotAt, hset]
  rfl

/-- A write moves `count` by the old and the new `valid` bit. -/
theorem validCount_of_set :
    validCount q' + (if slotValid (slotAt q i) then 1 else 0) = validCount q + (if slotValid v then 1 else 0) := by
  have hslot : slotAt q i = q.qslot[i] := List.getD_eq_getElem _ _ hi
  have hle := List.boole_getElem_le_countP (p := slotValid) hi
  rw [hslot, validCount, validCount, hset, List.countP_set hi]
  omega

end write

theorem validCount_le {p : Params} {q : QueueUnit} (hq : q.Fits p) : validCount q ≤ p.qcap :=
  List.countP_le_length.trans_eq hq.1

/-! ### A push (41_event_queue R132) -/

section push
variable {p : Params} {q : QueueUnit} (hq : q.Fits p) (e : KeyEvent)
include hq

theorem qPush_fits : (qPush p e q).Fits p := by
  obtain ⟨hlen, hin, hout⟩ := hq
  exact ⟨by rw [qPush_qslot, List.length_set, hlen], Nat.mod_lt _ (by omega), hout⟩

/-- A push into a free slot is one more unread event. -/
theorem validCount_qPush_of_free (hfree : fullAtIn q = false) : validCount (qPush p e q) = validCount q + 1 := by
  obtain ⟨hlen, hin, -⟩ := hq
  have hcount := validCount_of_set (qPush_qslot p e q) (hlen.symm ▸ hin)
  simpa [show slotValid (slotAt q q.qin) = false from hfree] using hcount

/-- A push into a full slot overwrites one unread event with another. -/
theorem validCount_qPush_of_full (hfull : fullAtIn q = true) : validCount (qPush p e q) = validCount q := by
  obtain ⟨hlen, hin, -⟩ := hq
  have hcount := validCount_of_set (qPush_qslot p e q) (hlen.symm ▸ hin)
  simpa [show slotValid (slotAt q q.qin) = true from hfull] using hcount

/-- With the input index at the k-th slot of the ring, a push writes that slot. -/
theorem ringSlot_qPush {j k : Nat} (hj : j < p.qcap) (hk : k < p.qcap) (hin : q.qin = (q.qout + k) % p.qcap) :
    ringSlot p (qPush p e q) j = if j = k then e.slot else ringSlot p q j := by
  obtain ⟨hlen, hlt, -⟩ := hq
  rw [ringSlot, slotAt_of_set (qPush_qslot p e q) (hlen.symm ▸ hlt), qPush_qout, hin]
  simp only [ring_index_eq_iff q.qout hk hj, eq_comm (a := k)]
  rfl

/-- A push into a free slot moves the input index with `count`. -/
theorem indicesAligned_qPush_iff (hfree : fullAtIn q = false) :
    (qPush p e q).IndicesAligned p ↔ q.IndicesAligned p := by
  rw [QueueUnit.IndicesAligned, validCount_qPush_of_free hq e hfree, qPush_qin, qPush_qout, ← Nat.add_assoc]
  exact succ_mod_eq_iff _ hq.2.1

end push

/-! ### A pop (41_event_queue R133) -/

theorem qPop_of_empty {q : QueueUnit} (p : Params) (h : emptyAtOut q = true) : qPop p q = q := if_pos h

theorem qPop_of_nonempty {q : QueueUnit} (p : Params) (h : emptyAtOut q = false) :
    qPop p q = { q with qslot := q.qslot.set q.qout 0#10, qout := (q.qout + 1) % p.qcap } := by
  rw [qPop, h]
  rfl

theorem qPop_fits {p : Params} {q : QueueUnit} (hq : q.Fits p) : (qPop p q).Fits p := by
  cases h : emptyAtOut q with
  | true => rwa [qPop_of_empty p h]
  | false =>
    obtain ⟨hlen, hin, hout⟩ := hq
    rw [qPop_of_nonempty p h]
    exact ⟨by rw [List.length_set, hlen], hin, Nat.mod_lt _ (by omega)⟩

section pop
variable {p : Params} {q : QueueUnit} (hq : q.Fits p) (hsome : emptyAtOut q = false)
include hq hsome

/-- A pop of an unread event leaves one fewer. -/
theorem validCount_qPop_of_nonempty : validCount (qPop p q) + 1 = validCount q := by
  obtain ⟨hlen, -, hout⟩ := hq
  have hvalid : slotValid (slotAt q q.qout) = true := by simpa [emptyAtOut] using hsome
  have hcount := validCount_of_set (congrArg QueueUnit.qslot (qPop_of_nonempty p hsome)) (hlen.symm ▸ hout)
  simpa [hvalid] using hcount

/-- A pop turns the ring by one place and clears the slot that comes last. -/
theorem ringSlot_qPop {j : Nat} (hj : j < p.qcap) :
    ringSlot p (qPop p q) j = if j + 1 = p.qcap then 0#10 else ringSlot p q (j + 1) := by
  obtain ⟨hlen, -, hout⟩ := hq
  have hpop := qPop_of_nonempty p hsome
  have hindex : ((qPop p q).qout + j) % p.qcap = (q.qout + (j + 1)) % p.qcap := by
    rw [hpop, Nat.mod_add_mod, Nat.add_assoc, Nat.add_comm 1 j]
  rw [ringSlot, slotAt_of_set (congrArg QueueUnit.qslot hpop) (hlen.symm ▸ hout), hindex]
  by_cases hlast : j + 1 = p.qcap
  · rw [if_pos hlast, hlast, Nat.add_mod_right, Nat.mod_eq_of_lt hout, if_pos rfl]
  · have hne : q.qout ≠ (q.qout + (j + 1)) % p.qcap := by
      intro h
      have hzero : (q.qout + 0) % p.qcap = (q.qout + (j + 1)) % p.qcap := (Nat.mod_eq_of_lt hout).trans h
      exact Nat.succ_ne_zero j ((ring_index_eq_iff q.qout (by omega) (by omega)).mp hzero).symm
    rw [if_neg hlast, if_neg hne]
    rfl

end pop

/-- A pop moves the output index against `count`. -/
theorem indicesAligned_qPop_iff {p : Params} {q : QueueUnit} (hq : q.Fits p) :
    (qPop p q).IndicesAligned p ↔ q.IndicesAligned p := by
  cases h : emptyAtOut q with
  | true => rw [qPop_of_empty p h]
  | false =>
    have hcount := validCount_qPop_of_nonempty hq h
    have hout : (qPop p q).qout = (q.qout + 1) % p.qcap := by rw [qPop_of_nonempty p h]
    rw [QueueUnit.IndicesAligned, QueueUnit.IndicesAligned, qPop_qin, hout, ← hcount, Nat.mod_add_mod, Nat.add_assoc,
      Nat.add_comm 1]

/-! ### An aligned queue (41_event_queue R137) -/

section aligned
variable {p : Params} {q : QueueUnit} (hq : q.Fits p) (ha : q.Aligned p)
include hq ha

/-- An aligned queue is full at its input index exactly at capacity. -/
theorem fullAtIn_iff_of_aligned : fullAtIn q = true ↔ validCount q = p.qcap := by
  have hle := validCount_le hq
  obtain ⟨-, -, hout⟩ := hq
  obtain ⟨hin, hvalid⟩ := ha
  rw [QueueUnit.IndicesAligned] at hin
  by_cases hfull : validCount q = p.qcap
  · have hat := hvalid 0 (by omega)
    rw [ringSlot, Nat.add_zero, Nat.mod_eq_of_lt hout] at hat
    rw [hfull, Nat.add_mod_right, Nat.mod_eq_of_lt hout] at hin
    simp only [fullAtIn, hin, hat, hfull, decide_eq_true_eq, iff_true]
    omega
  · have hat := hvalid (validCount q) (by omega)
    rw [ringSlot, ← hin, decide_eq_false (Nat.lt_irrefl _)] at hat
    simp [fullAtIn, hat, hfull]

theorem fullAtIn_eq_false_of_aligned (hroom : validCount q < p.qcap) : fullAtIn q = false := by
  rw [← Bool.not_eq_true, fullAtIn_iff_of_aligned hq ha]
  omega

/-- An aligned queue is empty at its output index exactly when it holds nothing. -/
theorem emptyAtOut_iff_of_aligned : emptyAtOut q = true ↔ validCount q = 0 := by
  obtain ⟨-, -, hout⟩ := hq
  have hat := ha.2 0 (by omega)
  rw [ringSlot, Nat.add_zero, Nat.mod_eq_of_lt hout] at hat
  simp [emptyAtOut, hat]

/-- With room left, a push keeps INV_Q and appends the event. -/
theorem qPush_of_room (e : KeyEvent) (hroom : validCount q < p.qcap) :
    (qPush p e q).Aligned p ∧ queueContents p (qPush p e q) = queueContents p q ++ [e.slot] := by
  have hfree := fullAtIn_eq_false_of_aligned hq ha hroom
  have hcount := validCount_qPush_of_free hq e hfree
  obtain ⟨hin, hvalid⟩ := ha
  refine ⟨⟨(indicesAligned_qPush_iff hq e hfree).mpr hin, fun j hj => ?_⟩, ?_⟩
  · rw [ringSlot_qPush hq e hj hroom hin, hcount]
    by_cases hlast : j = validCount q
    · simp [hlast]
    · rw [if_neg hlast, hvalid j hj, decide_eq_decide]
      omega
  · have hold : ∀ j ∈ List.range (validCount q), ringSlot p (qPush p e q) j = ringSlot p q j := by
      intro j hj
      have hlt := List.mem_range.mp hj
      rw [ringSlot_qPush hq e (by omega) hroom hin, if_neg (by omega)]
    rw [queueContents_eq_map_ringSlot, hcount, List.range_succ, List.map_append, List.map_congr_left hold,
      List.map_singleton, ringSlot_qPush hq e hroom hroom hin, if_pos rfl]
    rfl

/-- A pop keeps INV_Q. -/
theorem qPop_aligned : (qPop p q).Aligned p := by
  cases h : emptyAtOut q with
  | true => rwa [qPop_of_empty p h]
  | false =>
    have hcount := validCount_qPop_of_nonempty hq h
    have hle := validCount_le hq
    refine ⟨(indicesAligned_qPop_iff hq).mpr ha.1, fun j hj => ?_⟩
    rw [ringSlot_qPop hq h hj]
    by_cases hlast : j + 1 = p.qcap
    · rw [if_pos hlast, slotValid_zero, eq_comm, decide_eq_false_iff_not]
      omega
    · rw [if_neg hlast, ha.2 (j + 1) (by omega), decide_eq_decide]
      omega

/-- With contents, a pop returns the oldest unread event and leaves the others in order. -/
theorem qPop_of_contents {v : Slot} {rest : List Slot} (hcontents : queueContents p q = v :: rest) :
    emptyAtOut q = false ∧ slotAt q q.qout = v ∧ queueContents p (qPop p q) = rest := by
  have hlen := congrArg List.length hcontents
  rw [length_queueContents, List.length_cons] at hlen
  have hsome : emptyAtOut q = false := by
    rw [← Bool.not_eq_true, emptyAtOut_iff_of_aligned hq ha]
    omega
  have hcount := validCount_qPop_of_nonempty hq hsome
  have hle := validCount_le hq
  rw [queueContents_eq_map_ringSlot, hlen, List.range_succ_eq_map, List.map_cons, List.map_map, List.cons.injEq]
    at hcontents
  obtain ⟨hfirst, hrest⟩ := hcontents
  refine ⟨hsome, ?_, ?_⟩
  · rwa [ringSlot, Nat.add_zero, Nat.mod_eq_of_lt hq.2.2] at hfirst
  · rw [queueContents_eq_map_ringSlot, ← hrest, show validCount (qPop p q) = rest.length by omega]
    refine List.map_congr_left fun j hj => ?_
    have hlt := List.mem_range.mp hj
    rw [ringSlot_qPop hq hsome (by omega), if_neg (by omega)]
    rfl

end aligned

end Sys2Proof.Machine


/-!
The queue under the operations: the shape and INV_Q over every step, runs of enqueues and of pops, and the statements
about the queue's invariants and its order (41_event_queue R134 to R140, 70_reset R260, R271, 20_memory R62).
-/

namespace Sys2Proof.Machine

/-! ### The shape (20_memory R62) -/

theorem enqueue_fits (e : KeyEvent) {s : State} (hs : s.queue.Fits s.cfg) : (enqueue e s).queue.Fits s.cfg := by
  rcases enqueue_cases e s with ⟨-, h⟩ | ⟨-, -, h⟩ | ⟨-, -, h⟩ <;> rw [h]
  · exact qPush_fits hs e
  · exact hs
  · exact qPush_fits hs e

theorem enqueueAll_fits (es : List KeyEvent) {s : State} (hs : s.queue.Fits s.cfg) :
    (enqueueAll es s).queue.Fits s.cfg := by
  induction es generalizing s with
  | nil => exact hs
  | cons e es ih =>
    rw [← enqueue_cfg e s]
    exact ih ((enqueue_cfg e s).symm ▸ enqueue_fits e hs)

/-- The queue of RESET and of power-on (70_reset R260). -/
theorem clearedQueue_fits {p : Params} (hcap : 1 ≤ p.qcap) :
    QueueUnit.Fits p { qslot := List.replicate p.qcap 0#10, qin := 0, qout := 0 } :=
  ⟨List.length_replicate, hcap, hcap⟩

theorem queueAfter_fits (i : Instr) {s : State} (hcap : 1 ≤ s.cfg.qcap) (hs : s.queue.Fits s.cfg) :
    (queueAfter i s).Fits s.cfg := by
  cases i with
  | scanTick rows => exact enqueueAll_fits _ hs
  | pop => exact qPop_fits hs
  | reset => exact clearedQueue_fits hcap
  | _ => exact hs

/-- The speed unit's part of `State.Shaped` (10_state R31). -/
def SpeedUnit.Fits (p : Params) (u : SpeedUnit) : Prop :=
  u.rpmHist.length = p.boxcarSlots ∧ (u.rpmIdx < p.boxcarSlots ∨ u.rpmIdx = 0)

theorem storeBoxcar_fits {p : Params} (hpos : 1 ≤ p.boxcarN) (inst : BitVec 32) {u : SpeedUnit} (hu : u.Fits p) :
    (storeBoxcar p inst u).Fits p := by
  by_cases hone : p.boxcarN = 1
  · rwa [storeBoxcar_one p inst u hone]
  · have hslots : p.boxcarSlots = p.boxcarN := if_pos (by omega)
    rw [storeBoxcar_many p inst u hone]
    refine ⟨by rw [List.length_set, hu.1], .inl ?_⟩
    rw [hslots]
    exact Nat.mod_lt _ hpos

theorem crossThreshold_fits {p : Params} (hpos : 1 ≤ p.boxcarN) (raw : BitVec 12) {u : SpeedUnit} (hu : u.Fits p) :
    (crossThreshold p raw u).Fits p := by
  rcases crossThreshold_cases p raw u with ⟨-, -, h⟩ | ⟨-, -, h⟩ | ⟨-, h⟩ <;> rw [h]
  · exact storeBoxcar_fits hpos _ hu
  · exact hu
  · exact hu

theorem stallTest_fits {p : Params} {u : SpeedUnit} (hu : u.Fits p) : (stallTest p u).Fits p := by
  rcases stallTest_cases p u with ⟨-, h⟩ | ⟨-, hmany, h⟩ | ⟨-, -, h⟩ <;> rw [h]
  · exact hu
  · exact ⟨by rw [List.length_replicate, Params.boxcarSlots, if_pos hmany], .inr rfl⟩
  · exact hu

theorem speedAfter_fits (i : Instr) {p : Params} (hpos : 1 ≤ p.boxcarN) {u : SpeedUnit} (hu : u.Fits p) :
    (speedAfter p i u).Fits p := by
  cases i with
  | speedTick raw => exact stallTest_fits (crossThreshold_fits hpos raw (u := countTick u) hu)
  | reset => exact ⟨List.length_replicate, .inr rfl⟩
  | _ => exact hu

theorem shaped_iff_fits (s : State) : s.Shaped ↔ s.queue.Fits s.cfg ∧ s.speed.Fits s.cfg := by
  unfold QueueUnit.Fits SpeedUnit.Fits
  simp only [and_assoc]

theorem stateAfter_shaped (i : Instr) {s : State} (hvalid : s.cfg.Valid) (hs : s.Shaped) : (stateAfter i s).Shaped := by
  obtain ⟨hcap, hboxcar, -⟩ := hvalid
  rw [shaped_iff_fits] at hs ⊢
  exact ⟨queueAfter_fits i hcap hs.1, speedAfter_fits i hboxcar hs.2⟩

/-! ### RESET and power-on (70_reset R260, R262) -/

theorem clearedQueue_aligned {p : Params} (hcap : 1 ≤ p.qcap) :
    QueueUnit.Aligned p { qslot := List.replicate p.qcap 0#10, qin := 0, qout := 0 } := by
  have hcount : validCount { qslot := List.replicate p.qcap 0#10, qin := 0, qout := 0 } = 0 := by
    simp [validCount, List.countP_replicate]
  refine ⟨?_, fun j hj => ?_⟩
  · rw [QueueUnit.IndicesAligned, hcount, Nat.zero_mod]
  · rw [hcount, decide_eq_false (Nat.not_lt_zero j), ringSlot, slotAt, List.getD_replicate (h := Nat.mod_lt _ hcap),
      slotValid_zero]

theorem stateAfter_reset_queueAligned {s : State} (hvalid : s.cfg.Valid) : (stateAfter .reset s).QueueAligned :=
  clearedQueue_aligned hvalid.1

theorem stateAfter_reset_shaped {s : State} (hvalid : s.cfg.Valid) : (stateAfter .reset s).Shaped := by
  rw [shaped_iff_fits]
  exact ⟨clearedQueue_fits hvalid.1, List.length_replicate, .inr rfl⟩

/-! ### Enqueues under Drop (41_event_queue R134) -/

/-- Under Drop an aligned queue stays aligned, and each event is one more unread event or one more lost. -/
theorem enqueue_of_drop (e : KeyEvent) {s : State} (hdrop : s.cfg.enqFullPolicy = .drop) (hs : s.queue.Fits s.cfg)
    (ha : s.queue.Aligned s.cfg) :
    (enqueue e s).queue.Aligned s.cfg ∧
    validCount (enqueue e s).queue + (enqueue e s).lost = validCount s.queue + s.lost + 1 ∧
    validCount (enqueue e s).queue = min s.cfg.qcap (validCount s.queue + 1) := by
  have hle := validCount_le hs
  by_cases hroom : validCount s.queue < s.cfg.qcap
  · have hfree := fullAtIn_eq_false_of_aligned hs ha hroom
    rw [enqueue_of_free e s hfree]
    refine ⟨(qPush_of_room hs ha e hroom).1, ?_, ?_⟩ <;> simp only [validCount_qPush_of_free hs e hfree] <;> omega
  · have hfull : fullAtIn s.queue = true := (fullAtIn_iff_of_aligned hs ha).mpr (by omega)
    rw [enqueue_of_full_drop e s hfull hdrop]
    exact ⟨ha, by simp only; omega, by simp only; omega⟩

theorem enqueueAll_of_drop (es : List KeyEvent) {s : State} (hdrop : s.cfg.enqFullPolicy = .drop)
    (hs : s.queue.Fits s.cfg) (ha : s.queue.Aligned s.cfg) :
    (enqueueAll es s).queue.Aligned s.cfg ∧
    validCount (enqueueAll es s).queue + (enqueueAll es s).lost = validCount s.queue + s.lost + es.length ∧
    validCount (enqueueAll es s).queue = min s.cfg.qcap (validCount s.queue + es.length) := by
  induction es generalizing s with
  | nil =>
    have hle := validCount_le hs
    exact ⟨ha, rfl, by simp [hle]⟩
  | cons e es ih =>
    obtain ⟨ha', hsum, hcount⟩ := enqueue_of_drop e hdrop hs ha
    have hfits := enqueue_fits e hs
    rw [← enqueue_cfg e s] at hdrop hfits ha'
    obtain ⟨ha'', hsum', hcount'⟩ := ih hdrop hfits ha'
    rw [enqueue_cfg] at ha'' hcount'
    rw [enqueueAll_cons, List.length_cons]
    exact ⟨ha'', by omega, by omega⟩

theorem stateAfter_queueAligned_of_drop (i : Instr) {s : State} (hvalid : s.cfg.Valid)
    (hdrop : s.cfg.enqFullPolicy = .drop) (hs : s.Shaped) (ha : s.QueueAligned) : (stateAfter i s).QueueAligned := by
  have hfits := ((shaped_iff_fits s).mp hs).1
  rw [queueAligned_iff] at ha ⊢
  cases i with
  | scanTick rows => exact (enqueueAll_of_drop _ hdrop hfits ha).1
  | pop => exact qPop_aligned hfits ha
  | reset => exact stateAfter_reset_queueAligned hvalid
  | _ => exact ha

/-! ### Enqueues while there is room (41_event_queue R139) -/

/-- With room for all of them, a run of enqueues appends its events and loses none, under either policy. -/
theorem enqueueAll_of_room (es : List KeyEvent) {s : State} (hs : s.queue.Fits s.cfg) (ha : s.queue.Aligned s.cfg)
    (hroom : validCount s.queue + es.length ≤ s.cfg.qcap) :
    (enqueueAll es s).queue.Aligned s.cfg ∧ (enqueueAll es s).lost = s.lost ∧
    queueContents s.cfg (enqueueAll es s).queue = queueContents s.cfg s.queue ++ es.map KeyEvent.slot := by
  induction es generalizing s with
  | nil => exact ⟨ha, rfl, (List.append_nil _).symm⟩
  | cons e es ih =>
    rw [List.length_cons] at hroom
    have hlt : validCount s.queue < s.cfg.qcap := by omega
    have hfree := fullAtIn_eq_false_of_aligned hs ha hlt
    have hcount := validCount_qPush_of_free hs e hfree
    obtain ⟨ha', hcontents⟩ := qPush_of_room hs ha e hlt
    obtain ⟨ha'', hlost, hcontents'⟩ :=
      ih (s := { s with queue := qPush s.cfg e s.queue }) (qPush_fits hs e) ha' (by simp only [hcount]; omega)
    rw [enqueueAll_cons, enqueue_of_free e s hfree]
    exact ⟨ha'', hlost, by rw [hcontents', hcontents, List.map_cons, List.append_assoc, List.singleton_append]⟩

/-! ### Pops (41_event_queue R133, R139) -/

/-- POP of an aligned queue with contents returns the oldest unread event. -/
theorem stateAfter_pop_of_contents {s : State} (hs : s.queue.Fits s.cfg) (ha : s.queue.Aligned s.cfg) {v : Slot}
    {rest : List Slot} (hcontents : queueContents s.cfg s.queue = v :: rest) :
    (stateAfter .pop s).popResult = slotResult v ∧ queueContents s.cfg (stateAfter .pop s).queue = rest := by
  obtain ⟨hsome, hslot, hrest⟩ := qPop_of_contents hs ha hcontents
  refine ⟨?_, hrest⟩
  have hresult : (stateAfter .pop s).popResult = qPopResult s.queue := rfl
  rw [hresult, qPopResult, hsome, hslot]
  rfl

/-- The POP after n others returns the n-th of the contents. -/
theorem runAfter_pops {s : State} (hs : s.queue.Fits s.cfg) (ha : s.queue.Aligned s.cfg) (n : Nat) {v : Slot}
    (hv : (queueContents s.cfg s.queue)[n]? = some v) :
    (runAfter (repeatOp (n + 1) .pop) s).popResult = slotResult v ∧
    (runAfter (repeatOp (n + 1) .pop) s).lost = s.lost := by
  induction n generalizing s with
  | zero =>
    obtain ⟨rest, hrest⟩ : ∃ rest, queueContents s.cfg s.queue = v :: rest := by
      cases hcontents : queueContents s.cfg s.queue with
      | nil => simp [hcontents] at hv
      | cons w rest => simp_all
    exact ⟨(stateAfter_pop_of_contents hs ha hrest).1, rfl⟩
  | succ n ih =>
    cases hcontents : queueContents s.cfg s.queue with
    | nil => simp [hcontents] at hv
    | cons w rest =>
      rw [hcontents, List.getElem?_cons_succ] at hv
      have hrest := (stateAfter_pop_of_contents hs ha hcontents).2
      exact ih (s := stateAfter .pop s) (qPop_fits hs) (qPop_aligned hs ha) (hrest ▸ hv)

/-- POP at an empty slot changes nothing but its result. -/
theorem stateAfter_pop_of_empty {s : State} (h : emptyAtOut s.queue = true) :
    stateAfter .pop s = { s with popResult := 0x0000#16 } :=
  (eq_stateAfter_of_exec (exec_pop_of_empty s h)).symm

/-- Any number of POPs at an empty slot leave what the first leaves. -/
theorem runAfter_pops_of_empty (n : Nat) {s : State} (h : emptyAtOut s.queue = true) :
    runAfter (repeatOp (n + 1) .pop) s = { s with popResult := 0x0000#16 } := by
  induction n generalizing s with
  | zero => exact stateAfter_pop_of_empty h
  | succ n ih =>
    have hrun : runAfter (repeatOp (n + 1 + 1) .pop) s = runAfter (repeatOp (n + 1) .pop) (stateAfter .pop s) := rfl
    rw [hrun, stateAfter_pop_of_empty h]
    exact ih h

theorem waitPop_succ (n : Nat) (s : State) :
    waitPop (n + 1) s =
      if resultPresent (stateAfter .pop s).popResult then some (stateAfter .pop s)
      else waitPop n (stateAfter .pop s) := by
  simp only [waitPop, exec_eq_stateAfter]

theorem waitPop_of_empty (n : Nat) {s : State} (h : emptyAtOut s.queue = true) : waitPop n s = none := by
  induction n generalizing s with
  | zero => rfl
  | succ n ih =>
    rw [waitPop_succ, stateAfter_pop_of_empty h, if_neg (show ¬ resultPresent 0x0000#16 = true by decide)]
    exact ih h

theorem waitPop_of_nonempty (n : Nat) {s : State} (h : emptyAtOut s.queue = false) :
    waitPop (n + 1) s = some (stateAfter .pop s) := by
  have hvalid : slotValid (slotAt s.queue s.queue.qout) = true := by simpa [emptyAtOut] using h
  have hresult : (stateAfter .pop s).popResult = slotResult (slotAt s.queue s.queue.qout) := by
    rw [← eq_stateAfter_of_exec (exec_pop_of_nonempty s h)]
  rw [waitPop_succ, hresult, resultPresent_slotResult, hvalid, if_pos rfl]

/-! ### Misaligned indices (41_event_queue R138, 70_reset R271) -/

theorem lost_le_enqueue (e : KeyEvent) (s : State) : s.lost ≤ (enqueue e s).lost := by
  rcases enqueue_cases e s with ⟨-, h⟩ | ⟨-, -, h⟩ | ⟨-, -, h⟩ <;> rw [h]
  · exact Nat.le_succ _
  · exact Nat.le_succ _

theorem lost_le_enqueueAll (es : List KeyEvent) (s : State) : s.lost ≤ (enqueueAll es s).lost := by
  induction es generalizing s with
  | nil => exact Nat.le_refl _
  | cons e es ih => exact (lost_le_enqueue e s).trans (ih _)

/-- An enqueue that loses nothing found its slot free. -/
theorem fullAtIn_eq_false_of_lost_eq {e : KeyEvent} {s : State} (h : (enqueue e s).lost = s.lost) :
    fullAtIn s.queue = false := by
  rcases enqueue_cases e s with ⟨hfree, -⟩ | ⟨-, -, heq⟩ | ⟨-, -, heq⟩
  · exact hfree
  · rw [heq] at h
    exact absurd h (Nat.succ_ne_self _)
  · rw [heq] at h
    exact absurd h (Nat.succ_ne_self _)

/-- Enqueues that lose nothing move the input index with `count`. -/
theorem indicesAligned_enqueueAll_iff (es : List KeyEvent) {s : State} (hs : s.queue.Fits s.cfg)
    (hlost : (enqueueAll es s).lost = s.lost) :
    (enqueueAll es s).queue.IndicesAligned s.cfg ↔ s.queue.IndicesAligned s.cfg := by
  induction es generalizing s with
  | nil => exact Iff.rfl
  | cons e es ih =>
    rw [enqueueAll_cons] at hlost ⊢
    have hfirst : (enqueue e s).lost = s.lost :=
      Nat.le_antisymm ((lost_le_enqueueAll es _).trans_eq hlost) (lost_le_enqueue e s)
    have hfree := fullAtIn_eq_false_of_lost_eq hfirst
    have hfits := enqueue_fits e hs
    rw [← enqueue_cfg e s] at hfits
    have hrest := ih hfits (hlost.trans hfirst.symm)
    rw [enqueue_cfg] at hrest
    rw [hrest, enqueue_of_free e s hfree]
    exact indicesAligned_qPush_iff hs e hfree

/-- An operation that is not RESET and loses nothing keeps the indices aligned or misaligned, as they were. -/
theorem indicesAligned_queueAfter_iff {i : Instr} {s : State} (hs : s.queue.Fits s.cfg) (hi : i ≠ .reset)
    (hlost : lostAfter i s = s.lost) :
    (queueAfter i s).IndicesAligned s.cfg ↔ s.queue.IndicesAligned s.cfg := by
  cases i with
  | scanTick rows => exact indicesAligned_enqueueAll_iff _ hs hlost
  | pop => exact indicesAligned_qPop_iff hs
  | reset => exact absurd rfl hi
  | _ => exact Iff.rfl

/-! ### The statements about the invariants -/

/-- Settles O50: each unit keeps its shape under every operation. -/
theorem shapeIsKeptByEveryStep : Obligations.ShapeIsKeptByEveryStep := by
  intro s t hvalid hs h
  refine (step_keeps (P := fun u => u.cfg.Valid ∧ u.Shaped) (fun i u v hu hexec => ?_) (fun _ _ _ _ _ hu => hu)
    ⟨hvalid, hs⟩ h).2
  rw [eq_stateAfter_of_exec hexec]
  exact ⟨hu.1, stateAfter_shaped i hu.1 hu.2⟩

/-- Settles O22: with the parameters, the policy and the shape in the invariant, every operation keeps INV_Q. -/
theorem queueAlignmentIsKeptUnderDrop : Obligations.QueueAlignmentIsKeptUnderDrop := by
  intro s t hvalid hdrop hs ha h
  have hkept := step_keeps
    (P := fun u => (u.cfg.Valid ∧ u.cfg.enqFullPolicy = .drop) ∧ u.Shaped ∧ u.QueueAligned)
    (fun i u v hu hexec => ?_) (fun _ _ _ _ _ hu => hu) ⟨⟨hvalid, hdrop⟩, hs, ha⟩ h
  · exact hkept.2.2
  · obtain ⟨⟨hvalid, hdrop⟩, hs, ha⟩ := hu
    rw [eq_stateAfter_of_exec hexec]
    exact ⟨⟨hvalid, hdrop⟩, stateAfter_shaped i hvalid hs, stateAfter_queueAligned_of_drop i hvalid hdrop hs ha⟩

/-- Settles O48: the power-on state is the state RESET leaves of it. -/
theorem powerOnStateMeetsTheInvariants : Obligations.PowerOnStateMeetsTheInvariants := by
  refine ⟨by decide, rfl, fun p hvalid => ?_⟩
  rw [initial_eq_stateAfter_reset]
  exact ⟨stateAfter_reset_shaped hvalid, stateAfter_reset_inRange _, stateAfter_reset_queueAligned hvalid⟩

/-- Settles O52: a step's operation moves the two indices and `count` together unless it is RESET or overwrites. -/
theorem misalignmentLastsUntilResetOrOverwrite : Obligations.MisalignmentLastsUntilResetOrOverwrite := by
  refine ⟨fun s t hvalid hs hmis hstep hword hlost => ?_,
    fun s hvalid => ⟨_, exec_eq_stateAfter .reset s, stateAfter_reset_queueAligned hvalid⟩⟩
  have hfits := ((shaped_iff_fits s).mp hs).1
  suffices h : ¬ t.queue.IndicesAligned t.cfg from ⟨h, fun ha => h ha.1⟩
  rcases step_cases s t hstep with ⟨why, -, rfl⟩ | ⟨i, u, hdecode, hexec, rfl⟩
  · rw [settleIssue_queue, settleIssue_cfg, markRefused_queue, markRefused_cfg, takeIssue_queue, takeIssue_cfg]
    exact hmis
  · have hi : i ≠ .reset := by
      rintro rfl
      exact hword (encode_of_decode _ _ _ hdecode).2.symm
    obtain rfl := eq_stateAfter_of_exec hexec
    rw [← takeIssue_queue, ← takeIssue_cfg] at hfits hmis
    have hkept : lostAfter i s.takeIssue = s.takeIssue.lost :=
      (settleIssue_lost _ _).symm.trans (hlost.trans (takeIssue_lost s).symm)
    rw [settleIssue_queue, settleIssue_cfg]
    exact mt (indicesAligned_queueAfter_iff hfits hi hkept).mp hmis

/-! ### The statements about the order -/

/-- Settles O23: a push appends at the end of the ring, a full slot drops, and a pop takes the first place. -/
theorem alignedQueueIsFirstInFirstOut : Obligations.AlignedQueueIsFirstInFirstOut := by
  intro s _ hs ha
  have hfits := ((shaped_iff_fits s).mp hs).1
  refine ⟨fun e hroom => ?_, fun e hfull hdrop => ?_, fun v rest hcontents => ?_, fun hnone => ?_⟩
  · rw [length_queueContents] at hroom
    rw [enqueue_of_free e s (fullAtIn_eq_false_of_aligned hfits ha hroom)]
    exact ⟨(qPush_of_room hfits ha e hroom).2, rfl⟩
  · rw [length_queueContents, ← fullAtIn_iff_of_aligned hfits ha] at hfull
    exact enqueue_of_full_drop e s hfull hdrop
  · exact ⟨_, exec_eq_stateAfter .pop s, stateAfter_pop_of_contents hfits ha hcontents⟩
  · rw [← List.length_eq_zero_iff, length_queueContents, ← emptyAtOut_iff_of_aligned hfits ha] at hnone
    exact exec_pop_of_empty s hnone

/-- Settles O24: the enqueues make the events the contents, and the POPs read the contents in order. -/
theorem eventsComeOutInTheOrderTheyWentIn : Obligations.EventsComeOutInTheOrderTheyWentIn := by
  intro s events n e _ hs ha hnone hroom hn
  have hfits := ((shaped_iff_fits s).mp hs).1
  obtain ⟨ha', hlost, hcontents⟩ := enqueueAll_of_room events hfits ha (by omega)
  have hempty : queueContents s.cfg s.queue = [] := by
    rw [← List.length_eq_zero_iff, length_queueContents, hnone]
  have hfits' := enqueueAll_fits events hfits
  rw [hempty, List.nil_append] at hcontents
  rw [← enqueueAll_cfg events s] at ha' hfits' hcontents
  obtain ⟨hresult, hlost'⟩ := runAfter_pops hfits' ha' n (v := e.slot) (by rw [hcontents, List.getElem?_map, hn]; rfl)
  exact ⟨_, execAll_eq_runAfter _ _, hresult, hlost'.trans hlost⟩

/-- Settles O26: each of the at most four events is one more unread event or one more lost. -/
theorem eventsAreQueuedOrCountedLost : Obligations.EventsAreQueuedOrCountedLost := by
  intro s t rows _ hdrop hs ha h
  have hfits := ((shaped_iff_fits s).mp hs).1
  have hle := validCount_le hfits
  have hfour : (scanEvents s.cfg rows s.scan).length ≤ 4 := List.length_filterMap_le _ _
  obtain rfl := eq_stateAfter_of_exec h
  obtain ⟨-, hsum, hcount⟩ := enqueueAll_of_drop (scanEvents s.cfg rows s.scan) hdrop hfits ha
  have hlost : (stateAfter (.scanTick rows) s).lost = (enqueueAll (scanEvents s.cfg rows s.scan) s).lost := rfl
  exact ⟨hsum, hcount, by omega⟩

/-- Settles O27: an empty slot stays empty under POP, and the result of a POP at an event is present. -/
theorem waitPopEndsOnlyOnAnEvent : Obligations.WaitPopEndsOnlyOnAnEvent :=
  ⟨fun n _ h => waitPop_of_empty n h,
    fun n _ h => (execAll_eq_runAfter _ _).trans (congrArg _ (runAfter_pops_of_empty n h)),
    fun n s h => ⟨_, waitPop_of_nonempty n h, exec_eq_stateAfter .pop s⟩⟩

end Sys2Proof.Machine


/-!
Overwriting a full queue: the ring after a run of overwrites, and the two-slot example, with the statements about them
(41_event_queue R132, R134, R138; log 19).
-/

namespace Sys2Proof.Machine

/-! ### A run of overwrites (41_event_queue R132, R134) -/

/-- At capacity every slot holds an unread event. -/
theorem slotValid_of_validCount_eq {p : Params} {q : QueueUnit} (hq : q.Fits p) (hcount : validCount q = p.qcap)
    {i : Nat} (hi : i < p.qcap) : slotValid (slotAt q i) = true := by
  obtain ⟨hlen, -⟩ := hq
  rw [slotAt, List.getD_eq_getElem _ _ (hlen.symm ▸ hi)]
  exact List.countP_eq_length.mp (hcount.trans hlen.symm) _ (List.getElem_mem _)

/-- What overwrites by the events leave of a full queue whose indices met: the queue is still full, each event is
counted lost, the input index is as many places on, and the events stand in the first places of the ring. -/
structure Overwritten (s : State) (es : List KeyEvent) (t : State) : Prop where
  cfg_eq : t.cfg = s.cfg
  fits : t.queue.Fits s.cfg
  count_eq : validCount t.queue = s.cfg.qcap
  lost_eq : t.lost = s.lost + es.length
  qout_eq : t.queue.qout = s.queue.qout
  qin_eq : t.queue.qin = (s.queue.qout + es.length) % s.cfg.qcap
  ring_eq : ∀ j < s.cfg.qcap, ringSlot s.cfg t.queue j = (es.map KeyEvent.slot)[j]?.getD (ringSlot s.cfg s.queue j)

theorem overwritten_nil {s : State} (hs : s.queue.Fits s.cfg) (ha : s.queue.Aligned s.cfg)
    (hcount : validCount s.queue = s.cfg.qcap) : Overwritten s [] s where
  cfg_eq := rfl
  fits := hs
  count_eq := hcount
  lost_eq := rfl
  qout_eq := rfl
  qin_eq := by
    have hin := ha.1
    rwa [QueueUnit.IndicesAligned, hcount, Nat.add_mod_right] at hin
  ring_eq := fun _ _ => rfl

/-- One more overwrite, of the place after those written so far. -/
theorem overwritten_snoc {s t : State} {es : List KeyEvent} (e : KeyEvent)
    (hpolicy : s.cfg.enqFullPolicy = .overwrite) (hroom : es.length < s.cfg.qcap) (h : Overwritten s es t) :
    Overwritten s (es ++ [e]) (enqueue e t) := by
  obtain ⟨hcfg, hfits, hcount, hlost, hout, hin, hring⟩ := h
  have hfull : fullAtIn t.queue = true := slotValid_of_validCount_eq hfits hcount hfits.2.1
  rw [enqueue_of_full_overwrite e t hfull (hcfg.symm ▸ hpolicy), hcfg]
  refine ⟨rfl, qPush_fits hfits e, (validCount_qPush_of_full hfits e hfull).trans hcount, ?_, hout, ?_, fun j hj => ?_⟩
  · rw [List.length_append, hlost]
    rfl
  · rw [qPush_qin, hin, Nat.mod_add_mod, List.length_append]
    rfl
  · rw [ringSlot_qPush hfits e hj hroom (hout.symm ▸ hin), hring j hj, List.map_append, List.getElem?_append,
      List.length_map]
    by_cases hlast : j = es.length
    · simp [hlast]
    · by_cases hold : j < es.length
      · simp [hlast, hold]
      · have hnew : j - es.length ≠ 0 := by omega
        simp [hlast, hold, hnew]

theorem enqueueAll_append (es es' : List KeyEvent) (s : State) :
    enqueueAll (es ++ es') s = enqueueAll es' (enqueueAll es s) := List.foldl_append

theorem overwritten_enqueueAll {s : State} (es : List KeyEvent) (hpolicy : s.cfg.enqFullPolicy = .overwrite)
    (hs : s.queue.Fits s.cfg) (ha : s.queue.Aligned s.cfg) (hcount : validCount s.queue = s.cfg.qcap)
    (hlen : es.length ≤ s.cfg.qcap) : Overwritten s es (enqueueAll es s) := by
  induction es using List.reverseRecOn with
  | nil => exact overwritten_nil hs ha hcount
  | append_singleton es e ih =>
    rw [List.length_append, List.length_singleton] at hlen
    rw [enqueueAll_append]
    exact overwritten_snoc e hpolicy (by omega) (ih (by omega))

/-- After k ≤ QCAP overwrites the input index has met the output index again exactly for none and for QCAP of them. -/
theorem aligned_of_overwritten_iff {s t : State} {es : List KeyEvent} (h : Overwritten s es t)
    (hlen : es.length ≤ s.cfg.qcap) (hout : s.queue.qout < s.cfg.qcap) :
    t.queue.Aligned s.cfg ↔ es.length = 0 ∨ es.length = s.cfg.qcap := by
  obtain ⟨-, hfits, hcount, -, hqout, hqin, -⟩ := h
  have hindices : t.queue.IndicesAligned s.cfg ↔ es.length = 0 ∨ es.length = s.cfg.qcap := by
    rw [QueueUnit.IndicesAligned, hcount, hqout, hqin, Nat.add_mod_right]
    rcases Nat.lt_or_eq_of_le hlen with hlt | heq
    · rw [show s.queue.qout % s.cfg.qcap = (s.queue.qout + 0) % s.cfg.qcap from rfl,
        ring_index_eq_iff s.queue.qout hlt (by omega)]
      omega
    · simp [heq]
  rw [← hindices]
  refine ⟨fun ha => ha.1, fun hin => ⟨hin, fun j hj => ?_⟩⟩
  rw [hcount, decide_eq_true hj]
  exact slotValid_of_validCount_eq hfits hcount (Nat.mod_lt _ (by omega))

theorem contents_of_overwritten {s t : State} {es : List KeyEvent} (h : Overwritten s es t)
    (hlen : es.length = s.cfg.qcap) : queueContents s.cfg t.queue = es.map KeyEvent.slot := by
  rw [queueContents_eq_map_ringSlot, h.count_eq]
  refine List.ext_getElem (by simp [hlen]) fun j hj hj' => ?_
  rw [List.length_map, List.length_range] at hj
  rw [List.getElem_map, List.getElem_range, h.ring_eq j hj, List.getElem?_eq_getElem hj', Option.getD_some]

/-! ### Two slots (41_event_queue R138) -/

/-- A queue of two slots with these contents and indices. -/
def TwoSlots (s : State) (v w : Slot) (i o : Nat) : Prop :=
  s.cfg.qcap = 2 ∧ s.queue = { qslot := [v, w], qin := i, qout := o }

section twoSlots
variable {s : State} {v w : Slot} {i o : Nat}

theorem pop_of_first (h : TwoSlots s v w i 0) (hv : slotValid v = true) :
    ∃ t, exec .pop s = .next t ∧ TwoSlots t 0#10 w i 1 ∧ t.popResult = slotResult v ∧ t.lost = s.lost := by
  obtain ⟨hcap, hq⟩ := h
  have hsome : emptyAtOut s.queue = false := by simp [hq, emptyAtOut, slotAt, hv]
  refine ⟨_, exec_pop_of_nonempty s hsome, ⟨hcap, ?_⟩, ?_, rfl⟩ <;> simp [hq, hcap, slotAt]

theorem pop_of_second (h : TwoSlots s v w i 1) (hw : slotValid w = true) :
    ∃ t, exec .pop s = .next t ∧ TwoSlots t v 0#10 i 0 ∧ t.popResult = slotResult w ∧ t.lost = s.lost := by
  obtain ⟨hcap, hq⟩ := h
  have hsome : emptyAtOut s.queue = false := by simp [hq, emptyAtOut, slotAt, hw]
  refine ⟨_, exec_pop_of_nonempty s hsome, ⟨hcap, ?_⟩, ?_, rfl⟩ <;> simp [hq, hcap, slotAt]

/-- Whatever the second slot holds, a POP waits for the first. -/
theorem pop_of_first_empty (h : TwoSlots s 0#10 w i 0) :
    ∃ t, exec .pop s = .next t ∧ TwoSlots t 0#10 w i 0 ∧ t.popResult = 0x0000#16 ∧ t.lost = s.lost := by
  have hempty : emptyAtOut s.queue = true := by simp [h.2, emptyAtOut, slotAt]
  exact ⟨_, exec_pop_of_empty s hempty, h, rfl, rfl⟩

theorem enqueue_first_of_full (e : KeyEvent) (hpolicy : s.cfg.enqFullPolicy = .overwrite) (h : TwoSlots s v w 0 o)
    (hv : slotValid v = true) : TwoSlots (enqueue e s) e.slot w 1 o ∧ (enqueue e s).lost = s.lost + 1 := by
  obtain ⟨hcap, hq⟩ := h
  rw [enqueue_of_full_overwrite e s (by simp [hq, fullAtIn, slotAt, hv]) hpolicy]
  exact ⟨⟨hcap, by simp [hq, qPush, hcap]⟩, rfl⟩

theorem enqueue_first_of_free (e : KeyEvent) (h : TwoSlots s 0#10 w 0 o) :
    TwoSlots (enqueue e s) e.slot w 1 o ∧ (enqueue e s).lost = s.lost := by
  obtain ⟨hcap, hq⟩ := h
  rw [enqueue_of_free e s (by simp [hq, fullAtIn, slotAt])]
  exact ⟨⟨hcap, by simp [hq, qPush, hcap]⟩, rfl⟩

theorem enqueue_second_of_free (e : KeyEvent) (h : TwoSlots s v 0#10 1 o) :
    TwoSlots (enqueue e s) v e.slot 0 o ∧ (enqueue e s).lost = s.lost := by
  obtain ⟨hcap, hq⟩ := h
  rw [enqueue_of_free e s (by simp [hq, fullAtIn, slotAt])]
  exact ⟨⟨hcap, by simp [hq, qPush, hcap]⟩, rfl⟩

end twoSlots

/-! ### The statements about overwriting -/

/-- Settles O51: the ring after the overwrites. -/
theorem overwritesRealignAfterQcapOfThem : Obligations.OverwritesRealignAfterQcapOfThem := by
  intro s events _ hpolicy hs ha hcount hlen
  have hfits := ((shaped_iff_fits s).mp hs).1
  have h := overwritten_enqueueAll events hpolicy hfits ha hcount hlen
  have hcfg : (enqueueAll events s).cfg = s.cfg := h.cfg_eq
  refine ⟨h.lost_eq, h.count_eq, ?_, fun hall => ?_⟩
  · rw [← aligned_of_overwritten_iff h hlen hfits.2.2, ← hcfg]
    rfl
  · rw [← contents_of_overwritten h hall, ← hcfg]
    rfl

/-- Settles O25, operation by operation: the slots and the two indices each one leaves. -/
theorem overwriteMisalignsATwoSlotQueue : Obligations.OverwriteMisalignsATwoSlotQueue := by
  intro s a b c d e hcap hpolicy hq
  obtain ⟨hc, hlostC⟩ := enqueue_first_of_full c hpolicy ⟨hcap, hq⟩ (slotValid_slot a)
  obtain ⟨t1, hpop1, h1, hresult1, hlost1⟩ := pop_of_first hc (slotValid_slot c)
  obtain ⟨t2, hpop2, h2, hresult2, hlost2⟩ := pop_of_second h1 (slotValid_slot b)
  obtain ⟨t3, hpop3, h3, hresult3, hlost3⟩ := pop_of_first_empty h2
  obtain ⟨hd, hlostD⟩ := enqueue_second_of_free d h3
  obtain ⟨t4, hpop4, h4, hresult4, hlost4⟩ := pop_of_first_empty hd
  obtain ⟨he, hlostE⟩ := enqueue_first_of_free e h4
  obtain ⟨t5, hpop5, h5, hresult5, hlost5⟩ := pop_of_first he (slotValid_slot e)
  obtain ⟨t6, hpop6, -, hresult6, hlost6⟩ := pop_of_second h5 (slotValid_slot d)
  have hcount : validCount t4.queue = 1 := by simp [h4.2, validCount]
  exact ⟨t1, t2, t3, t4, t5, t6, hpop1, hresult1, hlost1.trans hlostC, hpop2, hresult2, hpop3, hresult3, hpop4,
    hresult4, hcount, hpop5, hresult5, hpop6, hresult6, by omega⟩

end Sys2Proof.Machine


/-!
Runs of observations: the bits of a history are its last samples, four ticks observe every key once, and the statements
about them and about the driven column (40_debounce_scan R108, R109, 10_state R24).
-/

namespace Sys2Proof.Machine

/-! ### The bits of a history (40_debounce_scan R101, R102) -/

theorem shiftHistory_getLsbD_zero (h : BitVec 8) (b : Bool) : (shiftHistory h b).getLsbD 0 = b := by
  rw [shiftHistory_eq_or]
  simp

theorem shiftHistory_getLsbD_succ (h : BitVec 8) (b : Bool) (i : Nat) (hi : i + 1 < 8) :
    (shiftHistory h b).getLsbD (i + 1) = h.getLsbD i := by
  have hget : h.getLsbD i = h[i] := BitVec.getLsbD_eq_getElem (by omega)
  rw [shiftHistory_eq_or, hget]
  simp [hi]

/-- The last observations, the newest first, are the low bits of the history. -/
theorem historyAfter_getLsbD (h : BitVec 8) (samples : List Bool) (i : Nat) (hi : i < 8) (hlen : i < samples.length) :
    (historyAfter h samples).getLsbD i = samples.reverse[i]'(by simpa using hlen) := by
  induction samples using List.reverseRecOn generalizing i with
  | nil => exact absurd hlen (Nat.not_lt_zero i)
  | append_singleton samples b ih =>
    have hlast : historyAfter h (samples ++ [b]) = shiftHistory (historyAfter h samples) b := by
      simp [historyAfter]
    simp only [hlast, List.reverse_append, List.reverse_singleton, List.singleton_append]
    cases i with
    | zero => exact shiftHistory_getLsbD_zero _ b
    | succ i =>
      rw [List.length_append, List.length_singleton] at hlen
      rw [shiftHistory_getLsbD_succ _ b i hi, ih i (by omega) (by omega)]
      rfl

/-- After seven observations and more, the seven low bits are all v exactly when the last seven observations were. -/
theorem lowBits_eq_iff (h : BitVec 8) (seven : List Bool) (hlen : seven.length = 7) (v : Bool) :
    (∀ i < 7, (historyAfter h seven).getLsbD i = v) ↔ seven = List.replicate 7 v := by
  have hbits : (∀ i < 7, (historyAfter h seven).getLsbD i = v) ↔ ∀ b ∈ seven.reverse, b = v := by
    have hbit (i : Nat) (hi : i < 7) := historyAfter_getLsbD h seven i (by omega) (by omega)
    rw [List.forall_mem_iff_forall_getElem]
    refine ⟨fun hall i hi => ?_, fun hall i hi => (hbit i hi).trans (hall i (by simp [hlen, hi]))⟩
    have hlt : i < 7 := by simpa [hlen] using hi
    exact (hbit i hlt).symm.trans (hall i hlt)
  rw [hbits, List.eq_replicate_iff]
  simp [hlen]

theorem lowBits_zero_iff (h : BitVec 8) : h.extractLsb' 0 7 = 0x00#7 ↔ ∀ i < 7, h.getLsbD i = false := by
  revert h
  decide

theorem lowBits_ones_iff (h : BitVec 8) : h.extractLsb' 0 7 = 0x7F#7 ↔ ∀ i < 7, h.getLsbD i = true := by
  revert h
  decide

/-- After a pressed observation another pressed one makes no event: bits 1 and 0 of the new history are 1. -/
theorem patternEvent_of_held (h : BitVec 8) (hpressed : h.getLsbD 0 = true) :
    patternEvent (shiftHistory h true) = none := by
  have hzero := shiftHistory_getLsbD_zero h true
  have hone := (shiftHistory_getLsbD_succ h true 0 (by omega)).trans hpressed
  have hpress : shiftHistory h true ≠ Config.pressPat := by
    intro heq
    rw [heq] at hone
    exact nomatch hone
  have hrelease : shiftHistory h true ≠ Config.releasePat := by
    intro heq
    rw [heq] at hzero
    exact nomatch hzero
  rw [patternEvent, if_neg hpress, if_neg hrelease]

/-- A key held since its last observation makes no event however long it is held. -/
theorem historyEvents_of_held (n : Nat) (h : BitVec 8) (hpressed : h.getLsbD 0 = true) :
    historyEvents h (List.replicate n true) = List.replicate n none := by
  induction n generalizing h with
  | zero => rfl
  | succ n ih =>
    rw [List.replicate_succ, List.replicate_succ, historyEvents, patternEvent_of_held h hpressed,
      ih _ (shiftHistory_getLsbD_zero h true)]

/-! ### The scan unit over SCAN_TICKs (40_debounce_scan R102, R108) -/

/-- A SCAN_TICK shifts the histories of the driven column and no other. -/
theorem scanUnitAfter_get (rows : BitVec 4) (u : ScanUnit) (c : BitVec 2) (r : Fin 4) :
    (scanUnitAfter rows u).hist.get (keyIndex c r) =
      if c = u.scanCol then shiftHistory (u.hist.get (keyIndex c r)) (rows.getLsbD r.val)
      else u.hist.get (keyIndex c r) := by
  have hget := foldl_shiftKey_get rows u.scanCol c r [0, 1, 2, 3] (by decide) u
  rw [← foldl_shiftKey_hist, hget]
  simp only [mem_rows, and_true]
  rfl

@[simp] theorem scanUnitAfter_scanCol (rows : BitVec 4) (u : ScanUnit) :
    (scanUnitAfter rows u).scanCol = u.scanCol + 1#2 := rfl

theorem column_cases (d : BitVec 2) : d = 0#2 ∨ d = 1#2 ∨ d = 2#2 ∨ d = 3#2 := by
  revert d
  decide

/-- Four ticks drive four different columns, so each key's history shifts in its own column's tick and in no other. -/
theorem fourTicks_get (m0 m1 m2 m3 : BitVec 4) (u : ScanUnit) (c : BitVec 2) (r : Fin 4) :
    (scanUnitAfter m3 (scanUnitAfter m2 (scanUnitAfter m1 (scanUnitAfter m0 u)))).hist.get (keyIndex c r) =
      shiftHistory (u.hist.get (keyIndex c r))
        (([m0, m1, m2, m3].getD (c - u.scanCol).toNat 0#4).getLsbD r.val) := by
  obtain ⟨d, rfl⟩ : ∃ d, c = u.scanCol + d := ⟨c - u.scanCol, by rw [BitVec.add_comm, BitVec.sub_add_cancel]⟩
  have hcol (k : BitVec 2) : u.scanCol + d = u.scanCol + k ↔ d = k := BitVec.add_right_inj u.scanCol
  have hcol0 : u.scanCol + d = u.scanCol ↔ d = 0#2 := by rw [← hcol, BitVec.add_zero]
  have hdiff : u.scanCol + d - u.scanCol = d := by rw [BitVec.add_comm, BitVec.add_sub_cancel]
  simp only [scanUnitAfter_get, scanUnitAfter_scanCol, BitVec.add_assoc, hcol, hcol0, hdiff]
  rcases column_cases d with rfl | rfl | rfl | rfl <;> rfl

/-! ### The statements about observations -/

/-- Settles O16: the frame is four ticks over the scan unit, and four columns on is the same column. -/
theorem frameObservesEveryKeyOnce : Obligations.FrameObservesEveryKeyOnce := by
  intro s m0 m1 m2 m3
  refine ⟨_, execAll_eq_runAfter _ s, ?_, fourTicks_get m0 m1 m2 m3 s.scan⟩
  have hturn : s.scan.scanCol + 1#2 + 1#2 + 1#2 + 1#2 = s.scan.scanCol := by
    rw [BitVec.add_assoc, BitVec.add_assoc, BitVec.add_assoc]
    exact BitVec.add_zero _
  exact hturn

/-- Settles O17: the first observation makes the Press pattern, and the key is held from then on. -/
theorem heldKeyMakesOnePress : Obligations.HeldKeyMakesOnePress := by
  intro n
  rw [List.replicate_succ, historyEvents, historyEvents_of_held n _ (shiftHistory_getLsbD_zero _ true)]
  rfl

/-- Settles O18: an event is made by the new sample and the seven low bits, which are the last seven samples. -/
theorem eventNeedsSevenSteadyObservations : Obligations.EventNeedsSevenSteadyObservations := by
  intro h before seven b hlen
  have hsplit : historyAfter h (before ++ seven) = historyAfter (historyAfter h before) seven := List.foldl_append
  rw [hsplit, patternEvent_eq_press, patternEvent_eq_release, shiftHistory_eq_press_iff, shiftHistory_eq_release_iff,
    lowBits_zero_iff, lowBits_ones_iff, lowBits_eq_iff _ seven hlen, lowBits_eq_iff _ seven hlen]
  exact ⟨Iff.rfl, Iff.rfl⟩

/-- Settles O19: the drive is bit 0 shifted by the column, and the next column is one place on. -/
theorem exactlyTheScanColumnIsDriven : Obligations.ExactlyTheScanColumnIsDriven := by
  have hbit (k : BitVec 2) (c : Nat) : (1#4 <<< k.toNat).getLsbD c = decide (c = k.toNat) := by
    have hk := k.isLt
    rw [Bool.eq_iff_iff]
    simp only [BitVec.getLsbD_shiftLeft, BitVec.getLsbD_one, Bool.and_eq_true, decide_eq_true_eq,
      Bool.not_eq_true', decide_eq_false_iff_not]
    omega
  have hnext (k : BitVec 2) : 1#4 <<< (k + 1#2).toNat = (1#4 <<< k.toNat).rotateLeft 1 := by
    revert k
    decide
  refine ⟨fun s c => hbit s.scan.scanCol c, fun s t rows h => ?_⟩
  rw [eq_stateAfter_of_exec h]
  exact hnext s.scan.scanCol

end Sys2Proof.Machine


/-!
Runs of SPEED_TICKs: what a run of samples above and a run of samples below the threshold leave in the speed unit, and
the statements about them (42_speed_estimator R152 to R160).
-/

namespace Sys2Proof.Machine

/-! ### Saturation (00_scope R12) -/

theorem sat32_toNat_self (e : BitVec 32) : sat32 e.toNat = e := by
  apply BitVec.eq_of_toNat_eq
  rw [sat32_toNat]
  omega

/-- Counting on after saturating is saturating once. -/
theorem sat32_sat32_add (a b : Nat) : sat32 ((sat32 a).toNat + b) = sat32 (a + b) := by
  apply BitVec.eq_of_toNat_eq
  simp only [sat32_toNat]
  omega

/-! ### One sample (42_speed_estimator R152 to R156) -/

/-- Above the threshold, a further sample above it is counted and nothing else happens. -/
theorem speedUnitAfter_of_steady_high {p : Params} {raw : BitVec 12} {u : SpeedUnit} (habove : u.spState = .above)
    (hhigh : p.threshRaw ≤ raw.toNat) : speedUnitAfter p raw u = countTick u := by
  have hnotbelow : ¬ u.spState = .below := fun h => nomatch habove.symm.trans h
  have hlevel : (countTick u).spState = .below ↔ raw.toNat < p.threshRaw :=
    iff_of_false hnotbelow (Nat.not_lt.mpr hhigh)
  rw [speedUnitAfter_of_not_rising p raw u (fun h => hnotbelow h.1), followSample_eq_self p raw _ hlevel]
  exact stallTest_of_not_stalled p _ fun h => hnotbelow h.1

/-- A sample below the threshold is counted, puts the level below, and clears `rpm` once `elapsed` is past
STALL_TICKS. -/
theorem speedUnitAfter_of_low {p : Params} {raw : BitVec 12} (u : SpeedUnit) (hlow : raw.toNat < p.threshRaw) :
    (speedUnitAfter p raw u).spState = .below ∧
    (speedUnitAfter p raw u).elapsed = sat32 (u.elapsed.toNat + 1) ∧
    (p.stallTicks < (sat32 (u.elapsed.toNat + 1)).toNat → (speedUnitAfter p raw u).rpm = 0#32) := by
  rw [speedUnitAfter_of_not_rising p raw u (fun h => Nat.not_lt.mpr h.2 hlow),
    followSample_of_low p raw (countTick u) hlow, stallTest_spState, stallTest_elapsed]
  exact ⟨rfl, rfl, fun hstall => (stallTest_of_stalled p _ ⟨rfl, hstall⟩).1⟩

/-- With no averaging a rising crossing leaves the estimate of the counted interval in `rpm`. -/
theorem speedUnitAfter_of_rising_one {p : Params} {raw : BitVec 12} {u : SpeedUnit} (hone : p.boxcarN = 1)
    (hfits : 6000 * p.tps < 2 ^ 32) (hbelow : u.spState = .below) (hhigh : p.threshRaw ≤ raw.toNat) :
    (speedUnitAfter p raw u).rpm.toNat = rhu (6000 * p.tps) (min (u.elapsed.toNat + 1) (2 ^ 32 - 1)) ∧
    (speedUnitAfter p raw u).elapsed = 0#32 ∧ (speedUnitAfter p raw u).spState = .above := by
  rw [speedUnitAfter_of_rising p raw u hbelow hhigh, storeBoxcar_one _ _ _ hone]
  exact ⟨instantRpm_countTick p hfits u, rfl, rfl⟩

/-! ### Runs of samples (42_speed_estimator R159, R160) -/

/-- The speed unit after a run of samples. -/
def speedRun (p : Params) (raws : List (BitVec 12)) (u : SpeedUnit) : SpeedUnit :=
  raws.foldl (fun v raw => speedUnitAfter p raw v) u

theorem speedRun_append (p : Params) (raws raws' : List (BitVec 12)) (u : SpeedUnit) :
    speedRun p (raws ++ raws') u = speedRun p raws' (speedRun p raws u) := List.foldl_append

theorem runAfter_speedTicks (raws : List (BitVec 12)) (s : State) :
    runAfter (raws.map .speedTick) s = { s with speed := speedRun s.cfg raws s.speed } := by
  induction raws generalizing s with
  | nil => rfl
  | cons raw raws ih => exact ih (stateAfter (.speedTick raw) s)

/-- A run above the threshold, from above it, counts its samples. -/
theorem speedRun_of_high {p : Params} (raws : List (BitVec 12)) {u : SpeedUnit} (habove : u.spState = .above)
    (hhigh : ∀ raw ∈ raws, p.threshRaw ≤ raw.toNat) :
    speedRun p raws u = { u with elapsed := sat32 (u.elapsed.toNat + raws.length) } := by
  induction raws generalizing u with
  | nil =>
    rw [List.length_nil, Nat.add_zero, sat32_toNat_self]
    rfl
  | cons raw raws ih =>
    obtain ⟨hraw, hraws⟩ := List.forall_mem_cons.mp hhigh
    have hrest := ih (u := countTick u) habove hraws
    rw [countTick_elapsed, sat32_sat32_add, Nat.add_assoc, Nat.add_comm 1] at hrest
    rw [speedRun, List.foldl_cons, speedUnitAfter_of_steady_high habove hraw]
    exact hrest

theorem speedRun_elapsed_of_low {p : Params} (raws : List (BitVec 12)) (u : SpeedUnit)
    (hlow : ∀ raw ∈ raws, raw.toNat < p.threshRaw) :
    (speedRun p raws u).elapsed = sat32 (u.elapsed.toNat + raws.length) := by
  induction raws generalizing u with
  | nil => exact (sat32_toNat_self u.elapsed).symm
  | cons raw raws ih =>
    obtain ⟨hraw, hraws⟩ := List.forall_mem_cons.mp hlow
    obtain ⟨-, helapsed, -⟩ := speedUnitAfter_of_low u hraw
    have hrest := ih (speedUnitAfter p raw u) hraws
    rw [helapsed, sat32_sat32_add, Nat.add_assoc, Nat.add_comm 1] at hrest
    exact hrest

/-- A run below the threshold, from any level, counts its samples, ends below, and has cleared `rpm` if it brought
`elapsed` past STALL_TICKS. -/
theorem speedRun_of_low {p : Params} {raws : List (BitVec 12)} (u : SpeedUnit) (hsome : raws ≠ [])
    (hlow : ∀ raw ∈ raws, raw.toNat < p.threshRaw) :
    (speedRun p raws u).spState = .below ∧
    (speedRun p raws u).elapsed = sat32 (u.elapsed.toNat + raws.length) ∧
    (p.stallTicks < (sat32 (u.elapsed.toNat + raws.length)).toNat → (speedRun p raws u).rpm = 0#32) := by
  have helapsed := speedRun_elapsed_of_low raws u hlow
  obtain ⟨front, last, rfl⟩ : ∃ front last, raws = front ++ [last] :=
    ⟨_, _, (List.dropLast_append_getLast hsome).symm⟩
  have hlast : last.toNat < p.threshRaw := hlow last (by simp)
  obtain ⟨hbelow, hcount, hstall⟩ := speedUnitAfter_of_low (speedRun p front u) hlast
  rw [← helapsed, speedRun_append]
  exact ⟨hbelow, rfl, fun h => hstall (hcount ▸ h)⟩

/-! ### The statements about runs -/

/-- Settles O29: the count step makes `elapsed` at least 1, so the guard's test fails. -/
theorem crossingNeverDividesByZero : Obligations.CrossingNeverDividesByZero := by
  intro p u
  have hpos := countTick_elapsed_pos u
  have hne : (countTick u).elapsed ≠ 0#32 := fun h => absurd (h ▸ hpos) (by decide)
  exact ⟨hpos, if_neg hne⟩

/-- Settles O30: the run counts its samples in `elapsed` and does nothing else. -/
theorem steadyHighSignalKeepsRpm : Obligations.SteadyHighSignalKeepsRpm := by
  intro raws s habove hhigh
  have hrun := speedRun_of_high raws habove hhigh
  refine ⟨_, execAll_eq_runAfter _ s, ?_, ?_⟩ <;> rw [runAfter_speedTicks, hrun]
  exact sat32_toNat _

/-- Settles O31: the bound on STALL_TICKS lets the saturating count pass it. -/
theorem silenceForcesRpmToZero : Obligations.SilenceForcesRpmToZero := by
  intro raws s hlow hsome hbound hpast
  obtain ⟨hbelow, -, hstall⟩ := speedRun_of_low s.speed hsome hlow
  refine ⟨_, execAll_eq_runAfter _ s, ?_⟩
  rw [runAfter_speedTicks]
  refine ⟨hstall ?_, hbelow⟩
  rw [sat32_toNat]
  omega

/-- Settles O32: the interval is counted over both runs, and the last sample is the rising crossing that measures
it. -/
theorem crossingIntervalGivesRpm : Obligations.CrossingIntervalGivesRpm := by
  intro highs lows last s hvalid hone habove hzero hhigh hlow hsome hlast hlen
  obtain ⟨-, -, -, hfits, -⟩ := hvalid
  have hhighs := speedRun_of_high highs habove hhigh
  obtain ⟨hbelow, hcount, -⟩ := speedRun_of_low (speedRun s.cfg highs s.speed) hsome hlow
  obtain ⟨hrpm, helapsed, hlevel⟩ := speedUnitAfter_of_rising_one hone hfits hbelow hlast
  have hinterval : min ((speedRun s.cfg lows (speedRun s.cfg highs s.speed)).elapsed.toNat + 1) (2 ^ 32 - 1) =
      highs.length + lows.length + 1 := by
    rw [hcount, hhighs, hzero]
    simp only [sat32_toNat, BitVec.toNat_ofNat]
    omega
  rw [hinterval] at hrpm
  refine ⟨_, execAll_eq_runAfter _ s, ?_⟩
  rw [runAfter_speedTicks, speedRun_append, speedRun_append]
  exact ⟨hrpm, helapsed, hlevel⟩

end Sys2Proof.Machine


/-!
Sequences of keys, edges and CONTROL_TICKs: typing a number, two digits at one place, toggling twice, and the boost duty
in numbers, with the statements about them (43_setpoint_entry R171 to R178, 44_duty_controller R201 to R209,
70_reset R266 to R268).
-/

namespace Sys2Proof.Machine

/-! ### Digits (43_setpoint_entry R171, 44_duty_controller R201) -/

/-- The digit key of a decimal digit, of either row of the table, writes that digit. -/
theorem stateAfter_digitKey (d : Fin 10) (s : State) :
    stateAfter (digitKey d) s = { s with entry := writeDigit (BitVec.ofNat 4 d.val) s.entry } := by
  have hlow : d.val < 8 → lowDigit (BitVec.ofNat 3 d.val) = BitVec.ofNat 4 d.val := by revert d; decide
  have hhigh : ¬ d.val < 8 → highDigit (BitVec.ofNat 1 (d.val - 8)) = BitVec.ofNat 4 d.val := by revert d; decide
  unfold digitKey
  split
  · rw [← hlow ‹_›]
    rfl
  · rw [← hhigh ‹_›]
    rfl

/-- Of two digits at one place the second stays (70_reset R266). -/
theorem writeDigit_writeDigit (a b : BitVec 4) (u : EntryUnit) : writeDigit b (writeDigit a u) = writeDigit b u := by
  simp only [writeDigit, Vector.setIfInBounds_setIfInBounds]

/-- What a digit and the CONTROL_TICK after it leave of the entry unit. -/
def typeDigit (d : Fin 10) (u : EntryUnit) : EntryUnit := advanceCursor (writeDigit (BitVec.ofNat 4 d.val) u)

theorem typeDigit_curRow (d : Fin 10) (u : EntryUnit) : (typeDigit d u).curRow = u.curRow :=
  advanceCursor_curRow _

theorem typeDigit_curCol_toNat (d : Fin 10) (u : EntryUnit) :
    (typeDigit d u).curCol.toNat = min (u.curCol.toNat + 1) 4 :=
  advanceCursor_curCol_toNat _

theorem typeDigit_digBuf (d : Fin 10) (u : EntryUnit) :
    (typeDigit d u).digBuf = u.digBuf.setIfInBounds u.curCol.toNat (BitVec.ofNat 4 d.val) :=
  advanceCursor_digBuf _

theorem stateAfter_digitKey_controlTick_entry (d : Fin 10) (s : State) :
    (stateAfter .controlTick (stateAfter (digitKey d) s)).entry = typeDigit d s.entry := by
  rw [stateAfter_digitKey]
  rfl

/-- Five digits typed from column 0 fill the buffer, whatever it held, and stay on the row. -/
theorem typeFiveDigits (d0 d1 d2 d3 d4 : Fin 10) (u : EntryUnit) (hcol : u.curCol = 0#3) :
    let typed := typeDigit d4 (typeDigit d3 (typeDigit d2 (typeDigit d1 (typeDigit d0 u))))
    typed.curRow = u.curRow ∧
    bufferValue typed.digBuf = 10000 * d0.val + 1000 * d1.val + 100 * d2.val + 10 * d3.val + d4.val := by
  have hdigit (d : Fin 10) : d.val % 16 = d.val := Nat.mod_eq_of_lt (by omega)
  refine ⟨by simp only [typeDigit_curRow], ?_⟩
  simp [typeDigit_digBuf, typeDigit_curCol_toNat, hcol, bufferValue, hdigit]

/-- COMMIT stores the value of the buffer in the register of the cursor's row. -/
theorem stateAfter_keyCommit_setpoints {s : State} {n : Nat} (hvalue : bufferValue s.entry.digBuf = n)
    (hn : n ≤ 99999) :
    (s.entry.curRow = 0#2 → (stateAfter .keyCommit s).setpoints.spVolt.toNat = n) ∧
    (s.entry.curRow = 1#2 → (stateAfter .keyCommit s).setpoints.spSpeed.toNat = n) ∧
    (s.entry.curRow = 2#2 → (stateAfter .keyCommit s).setpoints.spMax.toNat = n) := by
  have hstored : (stateAfter .keyCommit s).setpoints = storeSetpoint s.entry.curRow n s.setpoints := by
    rw [← hvalue]
    rfl
  obtain ⟨hvolt, hspeed, hmax⟩ := storeSetpoint_toNat s.entry.curRow n s.setpoints hn
  rw [hstored]
  exact ⟨fun h => hvolt.trans (if_pos h), fun h => hspeed.trans (if_pos h), fun h => hmax.trans (if_pos h)⟩

/-! ### Toggles (44_duty_controller R206, 20_memory R70) -/

theorem stateAfter_toggle {i : Instr} (hi : i ∈ [Instr.edge, Instr.keyStartstop]) (s : State) :
    stateAfter i s = { s with latch := toggle s.latch } :=
  (eq_stateAfter_of_exec (exec_eq_toggle s i hi)).symm

theorem toggle_of_set {u : MotorLatch} (h : u.running = true ∨ u.pwmEnabled = true) :
    toggle u = { u with running := false, pwmEnabled := false } := if_pos h

theorem toggle_of_clear {u : MotorLatch} (hrunning : u.running = false) (hpwm : u.pwmEnabled = false)
    (hvth : u.vth = false) : toggle u = { u with running := true, pwmEnabled := true } := by
  simp [toggle, hrunning, hpwm, hvth]

/-- With the two bits of the latch equal and `vth` = 0, `Toggle()` is its own inverse. -/
theorem toggle_toggle {u : MotorLatch} (heq : u.running = u.pwmEnabled) (hvth : u.vth = false) :
    toggle (toggle u) = u := by
  obtain ⟨running, pwmEnabled, vth⟩ := u
  obtain rfl : running = pwmEnabled := heq
  obtain rfl : vth = false := hvth
  cases running with
  | false => exact (congrArg toggle (toggle_of_clear rfl rfl rfl)).trans (toggle_of_set (.inl rfl))
  | true => exact (congrArg toggle (toggle_of_set (.inl rfl))).trans (toggle_of_clear rfl rfl rfl)

/-! ### The boost duty (44_duty_controller R202, R209 (f)) -/

/-- Between 9.01 V and 24.00 V the boost duty of a 9 V battery is between 0.11 % and 62.50 %. -/
theorem boost_bounds (v : Nat) (hlow : 900 < v) (hhigh : v ≤ 2400) :
    11 ≤ rhu (10000 * (v - 900)) v ∧ rhu (10000 * (v - 900)) v ≤ 6250 := by
  unfold rhu
  constructor
  · rw [Nat.le_div_iff_mul_le (by omega)]
    omega
  · rw [← Nat.lt_succ_iff, Nat.div_lt_iff_lt_mul (by omega)]
    omega

/-! ### The too-high voltage (44_duty_controller R202, R203) -/

/-- A tick that finds the voltage too high leaves an enabled stage that drives nothing. -/
theorem outputAfterTick_of_tooHigh {s : State} (hon : s.latch.pwmEnabled = true)
    (hfound : voltageTooHigh s.cfg s.setpoints.spVolt = true) :
    outputAfterTick (voltageTooHigh s.cfg s.setpoints.spVolt) s =
      { dutyHB := 0#14, dutyBoost := 0#14, dutyBuck := 0#14, pwmOutEn := true } := by
  rcases voltageMap_cases s.cfg s.setpoints.spVolt with
    ⟨-, hnot, -⟩ | ⟨-, -, hnot, -⟩ | ⟨-, -, -, hbuck, hboost⟩
  · exact nomatch hfound.symm.trans hnot
  · exact nomatch hfound.symm.trans hnot
  · rw [outputAfterTick, hon, hbuck, hboost, hBridgeDuty_eq_zero _ _ _ (.inl hfound)]
    rfl

/-! ### The statements about sequences -/

/-- Settles O36: the five digits fill the buffer, and COMMIT stores its value in the register of the row. -/
theorem typedDigitsAreCommitted : Obligations.TypedDigitsAreCommitted := by
  intro s d0 d1 d2 d3 d4 hcol _
  obtain ⟨hrow, hvalue⟩ := typeFiveDigits d0 d1 d2 d3 d4 s.entry hcol
  simp only [← stateAfter_digitKey_controlTick_entry] at hrow hvalue
  refine ⟨_, execAll_eq_runAfter _ s, ?_⟩
  simp only [runAfter_cons, runAfter_nil]
  rw [← hrow]
  exact stateAfter_keyCommit_setpoints hvalue (by omega)

/-- Settles O37: the second digit overwrites the first before the tick. -/
theorem secondDigitReplacesTheFirst : Obligations.SecondDigitReplacesTheFirst := by
  intro s a b _
  have hsame : runAfter [digitKey a, digitKey b, .controlTick] s = runAfter [digitKey b, .controlTick] s := by
    simp only [runAfter_cons, stateAfter_digitKey, writeDigit_writeDigit]
  refine ⟨_, (execAll_eq_runAfter _ s).trans (congrArg _ hsame), execAll_eq_runAfter _ s, ?_⟩
  simp only [runAfter_cons, runAfter_nil, stateAfter_digitKey_controlTick_entry]
  exact ⟨typeDigit_curCol_toNat b s.entry, advanceCursor_digitEntered _⟩

/-- Settles O39: both operations are `Toggle()`, which is its own inverse here. -/
theorem twoTogglesRestoreTheLatch : Obligations.TwoTogglesRestoreTheLatch := by
  intro s i j hi hj heq hvth
  rw [execAll_eq_runAfter, runAfter_cons, runAfter_cons, runAfter_nil, stateAfter_toggle hi, stateAfter_toggle hj,
    toggle_toggle heq hvth]

/-- Settles O42: the latch and the voltage case decide the duties, and the bounds make the boost duty positive. -/
theorem boostRunsExactlyAboveTheBattery : Obligations.BoostRunsExactlyAboveTheBattery := by
  intro s t hbatt hceil h
  obtain rfl := eq_stateAfter_of_exec h
  have houtput : (stateAfter .controlTick s).output =
      outputAfterTick (voltageTooHigh s.cfg s.setpoints.spVolt) s := rfl
  rw [houtput]
  cases hon : s.latch.pwmEnabled with
  | false => simp [outputAfterTick_of_disabled _ s hon]
  | true =>
    obtain ⟨-, hboost, hbuck⟩ := outputAfterTick_toNat_of_enabled (voltageTooHigh s.cfg s.setpoints.spVolt) s hon
    simp only [hboost, hbuck, true_and]
    rcases voltageMap_cases s.cfg s.setpoints.spVolt with
      ⟨hlow, -, -, hzero⟩ | ⟨hlow, hhigh, -, hfull, hmapped⟩ | ⟨-, hhigh, -, -, hzero⟩
    · rw [hzero]
      omega
    · rw [hbatt] at hlow hmapped
      rw [hceil] at hhigh
      rw [hfull, hmapped]
      have hbounds := boost_bounds _ hlow hhigh
      omega
    · rw [hzero]
      omega

/-- Settles O43: COMMIT writes neither the latch nor `vth`, so the Toggle sets the latch, and the tick finds the
committed voltage above the ceiling. -/
theorem staleFlagStillDrivesNothing : Obligations.StaleFlagStillDrivesNothing := by
  intro s i hvalid hs hi hrow hpwm hvth hhigh
  obtain ⟨-, -, -, -, -, hceil, -⟩ := hvalid
  obtain ⟨hlatch, ⟨-, -, hdigits⟩, -⟩ := (inRange_iff_units s).mp hs
  have hvolt := (stateAfter_keyCommit_setpoints rfl (bufferValue_le _ hdigits)).1 hrow
  have hset : toggle (stateAfter .keyCommit s).latch = { running := true, pwmEnabled := true, vth := false } := by
    have hkept : (stateAfter .keyCommit s).latch = s.latch := rfl
    rw [hkept, toggle_of_clear (hlatch.trans hpwm) hpwm hvth, hvth]
  obtain ⟨t, hrun, hrunning, hcfg, hsetpoints⟩ : ∃ t, execAll [.keyCommit, i] s = .next t ∧
      t.latch = { running := true, pwmEnabled := true, vth := false } ∧ t.cfg = s.cfg ∧
      t.setpoints = (stateAfter .keyCommit s).setpoints := by
    refine ⟨_, execAll_eq_runAfter _ s, ?_⟩
    rw [runAfter_cons, runAfter_cons, runAfter_nil, stateAfter_toggle hi]
    exact ⟨hset, rfl, rfl⟩
  have hfound : voltageTooHigh t.cfg t.setpoints.spVolt = true := by
    rw [hcfg, hsetpoints, voltageTooHigh_eq_decide _ _ hceil, hvolt, decide_eq_true hhigh]
  refine ⟨t, _, hrun, hrunning, exec_controlTick t, ?_, outputAfterTick_of_tooHigh (by rw [hrunning]) hfound⟩
  rw [hfound, hrunning]

/-- Settles O44: `Toggle()` writes the latch alone, and a tick with the latch clear turns the stage off. -/
theorem stopTakesEffectAtTheNextControlTick : Obligations.StopTakesEffectAtTheNextControlTick := by
  intro s i hi hrunning
  refine ⟨_, _, exec_eq_toggle s i hi, rfl, ?_, ?_, exec_controlTick _, outputAfterTick_of_disabled _ _ ?_⟩ <;>
    rw [toggle_of_set (.inl hrunning)]

end Sys2Proof.Machine
